-- ==== Sys2Proof/Word.lean ====
section
/-! DEFINITION. The widths of the UART frame block (00_scope.md R10): bytes, 16-bit words, and the ten-byte Frame
(20_memory.md R46). A count of ticks (`uTW`, R10) is a natural number, since its width `TW` is a parameter: what is written
to a tick register is truncated to `cfg.TW` bits (`truncTicks`), and the invariant of Safety.lean says that it fits (log 8).
Nothing here depends on the configuration or on the state. -/

namespace Sys2Proof

/-- `u8` (R10). -/
abbrev Byte := BitVec 8

/-- `u16` (R10). -/
abbrev Word := BitVec 16

/-- A Frame: ten bytes, named by the field aliases of 10_state.md R22; offset 0 is `start`, offset 9 is `endm`. -/
structure Frame where
  /-- offset 0, start marker -/
  start : Byte
  /-- offset 1, protocol version -/
  ver : Byte
  /-- offset 2, payload length -/
  len : Byte
  /-- offset 3, command code -/
  cmd : Byte
  /-- offset 4, feedback flag -/
  fb : Byte
  /-- offset 5, parameter high byte -/
  pmsb : Byte
  /-- offset 6, parameter low byte -/
  plsb : Byte
  /-- offset 7, checksum high byte -/
  ckmsb : Byte
  /-- offset 8, checksum low byte -/
  cklsb : Byte
  /-- offset 9, end marker -/
  endm : Byte
  deriving DecidableEq, Repr, Inhabited

end Sys2Proof
end

