-- ==== Sys2Proof/Config.lean ====
section
/-! DEFINITION. The configuration record `cfg` (00_scope.md R8, R9): what the spec fixes is a number here, what it leaves OPEN is
a constant without a body, so that a proof holds for every value of it (log 6, 7, 8). Also the names the tables of `cfg` are
indexed by: the 31 control actions, the nine queries, the causes of an error report; and the free values (log 5). -/

namespace Sys2Proof

/-- The 31 control actions of 30_encoding.md R69, in the order of its table (D15). -/
inductive Action where
  | play | pause | stop | next | prev | volup | voldown | volset | eq | loopmode | source
  | standby | normal | sleep | wake | resetdev | resume | folder | lfolder | advert | advstop | gain
  | repplayStart | repplayStop | repfolderStart | repfolderStop | repcurStart | repcurStop
  | randomall | dacOn | dacOff
  deriving DecidableEq, Repr

/-- The name of a storage medium (`cfg.MEDIA` is a finite list of them, D16), numbered by a byte.
DESIGN CHOICE, safe: the spec gives the names no form (log 11). -/
abbrev Medium := Byte

/-- The nine queries of 30_encoding.md R70, the index of `cfg.QCAT`. -/
inductive Query where
  | status | volume | eq | mode | version | count (med : Medium) | curTrack (med : Medium) | folders | folderTracks
  deriving DecidableEq, Repr

/-- The causes of an error report (44_error_translator.md R200). -/
inductive Cause where
  /-- "module busy/not initialized" -/
  | moduleBusy
  /-- "currently in sleep mode" -/
  | sleeping
  /-- "incomplete frame received" -/
  | frameIncomplete
  /-- "checksum mismatch" -/
  | checksumMismatch
  /-- "track out of range" -/
  | trackOutOfRange
  /-- "track not found" -/
  | trackNotFound
  /-- "invalid insertion (no track currently playing)" -/
  | invalidInsertion
  /-- "storage medium read failure" -/
  | mediumReadFailure
  /-- "entered sleep mode" -/
  | enteredSleep
  /-- the generic "unknown error, code=N" -/
  | unknown (n : Byte)
  deriving DecidableEq, Repr, Inhabited

/-- The nine causes that have a name, in the order of D0's list (R200). -/
abbrev namedCauses : List Cause :=
  [.moduleBusy, .sleeping, .frameIncomplete, .checksumMismatch, .trackOutOfRange, .trackNotFound, .invalidInsertion,
    .mediumReadFailure, .enteredSleep]

/-- The fields of `cfg` (R8) that the spec does not fix. No field can depend on state, time or received data (R9). -/
structure Cfg where
  /-- `CAT.a` for the 30 actions other than PLAY; the entry for PLAY is not read (D11) -/
  cat : Action → Byte
  /-- `QCAT.q` (D11) -/
  qcat : Query → Byte
  /-- `SENT.a`, true for 1 and false for 0; read for the actions of class NONE only (D13) -/
  sent : Action → Bool
  /-- `SRC_SET` (D14) -/
  srcSet : List Word
  /-- `MEDIA` (D16) -/
  media : List Medium
  /-- `EXPECT` (D8; default the identity) -/
  expect : Byte → Byte
  /-- `FB_DEFAULT` (D9; default 0x00) -/
  fbDefault : Byte
  /-- `ERRTAB` (D17) -/
  errtab : Byte → Cause
  /-- `TW`, at least 1 (D3; default 32) -/
  tw : Nat
  /-- `TICK_PERIOD`, in an unstated unit; no rule reads it (D3) -/
  tickPeriod : Nat

/-- START (R8). -/
def START : Byte := 0x7E
/-- VERSION (R8). -/
def VERSION : Byte := 0xFF
/-- LENGTH (R8): a constant, never read as a count (R62). -/
def LENGTH : Byte := 0x06
/-- END (R8). -/
def ENDMARK : Byte := 0xEF
/-- FRAME_BYTES (R8). -/
def FRAME_BYTES : Nat := 10
/-- ERR_CODE (R8), the error-report code. -/
def ERR_CODE : Byte := 0x40
/-- CAT.PLAY (R8; 90_conflicts.md C4). -/
def PLAY_CODE : Byte := 0x0D
/-- VOL_MAX (R8). -/
def VOL_MAX : Word := 30
/-- EQ_MAX (R8). -/
def EQ_MAX : Word := 5
/-- GAIN_MAX (R8). -/
def GAIN_MAX : Word := 31

/-- The three constraints of 44_error_translator.md R201 on a cause table: the entry of 0x05, `Unknown` carrying its own code,
and every named cause the image of some code. -/
def errtabLegal (f : Byte → Cause) : Bool :=
  let codes := (List.range 256).map (BitVec.ofNat 8)
  decide (f 0x05 = .trackOutOfRange)
    && codes.all (fun n => match f n with | .unknown m => decide (m = n) | _ => true)
    && namedCauses.all (fun c => codes.any (fun n => decide (f n = c)))

/-- The informative table of 44_error_translator.md R202 (PRESUMED there, the device family's codes). It serves two ends
only: tests, and an inhabitant of the legal tables; no rule depends on a row of it but 0x05 (log 7). -/
def errtabInstance (n : Byte) : Cause :=
  if n = 0x01 then .moduleBusy
  else if n = 0x02 then .sleeping
  else if n = 0x03 then .frameIncomplete
  else if n = 0x04 then .checksumMismatch
  else if n = 0x05 then .trackOutOfRange
  else if n = 0x06 then .trackNotFound
  else if n = 0x07 then .invalidInsertion
  else if n = 0x08 then .mediumReadFailure
  else if n = 0x0A then .enteredSleep
  else .unknown n

/-- `cfg.CAT` but for PLAY: OPEN (D11). -/
opaque Config.cat : Action → Byte
/-- `cfg.QCAT`: OPEN (D11). -/
opaque Config.qcat : Query → Byte
/-- `cfg.SENT`, as a bit: OPEN (D13). -/
opaque Config.sent : Action → Bool
/-- `cfg.SRC_SET`: OPEN (D14). -/
opaque Config.srcSet : List Word
/-- `cfg.MEDIA`: OPEN (D16). -/
opaque Config.media : List Medium
/-- `cfg.TICK_PERIOD`: OPEN, read by no rule (D3). -/
opaque Config.tickPeriod : Nat
/-- `cfg.EXPECT`: a parameter (U8; D8). -/
opaque Config.expect : Byte → Byte
/-- `cfg.FB_DEFAULT`: a parameter (U9; D9). -/
opaque Config.fbDefault : Byte
/-- `cfg.TW` less one, so that every value is a width the spec admits (at least 1): a parameter (U14; D3). -/
opaque Config.twLessOne : Nat
/-- Any table of causes: OPEN (D17); `Config.errtab` holds it to R201. -/
opaque Config.openErrtab : Byte → Cause

/-- `cfg.ERRTAB`: any table that meets R201. The open table is taken where it is legal; else the informative table stands in,
so that exactly the legal tables are possible values (log 7). -/
def Config.errtab (n : Byte) : Cause :=
  if n = 0x05 then .trackOutOfRange
  else if errtabLegal Config.openErrtab then Config.openErrtab n else errtabInstance n

/-- The k-th free byte: the value a register holds where the spec leaves it unspecified after an event (log 5). -/
opaque Config.freeByte : Nat → Byte
/-- The k-th free tick count, before it is cut to `cfg.TW` bits (log 5). -/
opaque Config.freeTicks : Nat → Nat

/-- The configuration of the machine: every field the source does not fix is open, those with a default of the spec among them
(R8), so that what is proved of `cfg` holds for every configuration (log 6, 7, 8). -/
def cfg : Cfg where
  cat := Config.cat
  qcat := Config.qcat
  sent := Config.sent
  srcSet := Config.srcSet
  media := Config.media
  expect := Config.expect
  fbDefault := Config.fbDefault
  errtab := Config.errtab
  tw := Config.twLessOne + 1
  tickPeriod := Config.tickPeriod

end Sys2Proof
end

