-- ==== Sys2Proof/Machine/FrameCodec.lean ====
section
/-! DEFINITION. FrameCodec and ErrorTranslator: the pure functions of 40_framecodec.md (R90 to R96), well-formedness
(30_encoding.md R61), the big-endian split (20_memory.md R45) and `describe` (44_error_translator.md R200). No state. -/

namespace Sys2Proof.Machine

/-- `v[15:8]` (R10). -/
def hiByte (v : Word) : Byte := v.extractLsb' 8 8

/-- `v[7:0]` (R10). -/
def loByte (v : Word) : Byte := v.extractLsb' 0 8

/-- `{hi, lo}` (R10): the 16-bit value of two bytes, the more significant first (R45). -/
def joinBytes (hi lo : Byte) : Word := hi ++ lo

/-- The ten bytes in order of transmission, offset 0 first (R44, R46). -/
def frameBytes (F : Frame) : List Byte :=
  [F.start, F.ver, F.len, F.cmd, F.fb, F.pmsb, F.plsb, F.ckmsb, F.cklsb, F.endm]

/-- The 16-bit sum of offsets 1 to 6 (R90). -/
def frameSum (F : Frame) : Word :=
  F.ver.setWidth 16 + F.len.setWidth 16 + F.cmd.setWidth 16 + F.fb.setWidth 16 + F.pmsb.setWidth 16 + F.plsb.setWidth 16

/-- `checksumOf` (R90): bitwise NOT of the sum, plus one, kept to 16 bits. -/
def checksumOf (F : Frame) : Word := ~~~(frameSum F) + 1

/-- The captured checksum, `{F[7], F[8]}`. -/
def frameChecksum (F : Frame) : Word := joinBytes F.ckmsb F.cklsb

/-- `wf(F)` (R61). -/
def frameWf (F : Frame) : Bool :=
  F.start == START && F.ver == VERSION && F.len == LENGTH && F.endm == ENDMARK && frameChecksum F == checksumOf F

/-- `encode(c, f, m, l)` (R91). -/
def encodeFrame (c f m l : Byte) : Frame :=
  let F : Frame :=
    { start := START, ver := VERSION, len := LENGTH, cmd := c, fb := f, pmsb := m, plsb := l,
      ckmsb := 0, cklsb := 0, endm := ENDMARK }
  { F with ckmsb := hiByte (checksumOf F), cklsb := loByte (checksumOf F) }

/-- `F.value` (R96): `(paramMSB << 8) | paramLSB`. -/
def frameValue (F : Frame) : Word := joinBytes F.pmsb F.plsb

/-- Ten bytes as a Frame, offset 0 first; any other number of bytes is no frame (R60). -/
def frameOfBytes : List Byte → Option Frame
  | [b0, b1, b2, b3, b4, b5, b6, b7, b8, b9] => some ⟨b0, b1, b2, b3, b4, b5, b6, b7, b8, b9⟩
  | _ => none

/-- `describe(n)` (R200, R203): total, and a function of `n` and the configuration alone. -/
def describe (k : Cfg) (n : Byte) : Cause := k.errtab n

end Sys2Proof.Machine
end

