-- ==== Sys2Proof/Syntax.lean ====
section
/-! DEFINITION. The instructions: one constructor for each row of spec/opcode_table.json. They are the input events of
00_scope.md R12 (`Issue(a, args)` split by action, `Ask` with its nine wrappers, `RxByte`, `Tick`, `Reset`) and the table's two
rows for a received frame. -/

namespace Sys2Proof

/-- An instruction of the opcode table. Operand widths: 30_encoding.md R65 to R68 and 43_query_correlator.md R171 (D10). -/
inductive Instr where
  -- the 31 control actions, 42_catalog_dispatch.md R126 to R156
  | play (n : Word)
  | pause
  | stop
  | next
  | prev
  | volup
  | voldown
  | volset (v : Word)
  | eq (e : Word)
  | loopmode (m : Word)
  | source (v : Word)
  | standby
  | normal
  | sleep
  | wake
  | resetdev
  | resume
  | folder (f t : Byte)
  | lfolder (f : Byte) (t : Word)
  | advert (n : Word)
  | advstop
  | gain (g : Word)
  | repplayStart
  | repplayStop
  | repfolderStart (f : Word)
  | repfolderStop
  | repcurStart
  | repcurStop
  | randomall
  | dacOn
  | dacOff
  -- the query operation and its nine wrappers, 43_query_correlator.md R170, R171, R181 to R189
  | ask (q msb lsb : Byte) (t : Nat)
  | qstatus (t : Nat)
  | qvolume (t : Nat)
  | qeq (t : Nat)
  | qmode (t : Nat)
  | qversion (t : Nat)
  | qcount (med : Medium) (t : Nat)
  | qcurtrack (med : Medium) (t : Nat)
  | qfolders (t : Nat)
  | qfoldertracks (f : Word) (t : Nat)
  -- a well-formed frame received, given by the four bytes that determine it (R61), and one with the error-report code
  | rxframe (c f m l : Byte)
  | rxerror (f m l : Byte)
  -- the remaining input events: 41_frameparser.md R100 to R110; R178; 70_reset_and_hazards.md R240
  | rxbyte (b : Byte)
  | tick
  | reset
  deriving DecidableEq, Repr

end Sys2Proof
end

