-- ==== Sys2Proof/Machine/Operands.lean ====
section
/-! DEFINITION. CommandCatalog: the four parameter classes (30_encoding.md R64 to R68), the catalog entry of each action (R69;
42_catalog_dispatch.md R120, R121, R123), and the operands of each instruction as the dispatcher sees them. -/

namespace Sys2Proof.Machine

/-- The four ways of filling the two parameter bytes (R64). -/
inductive ParamClass where
  | none | val16 | bytes2 | packLf
  deriving DecidableEq, Repr

/-- The operands of an action, by class (R65 to R68). -/
inductive Args where
  | none
  | val16 (v : Word)
  | bytes2 (hi lo : Byte)
  | packLf (folder : Byte) (track : Word)
  deriving DecidableEq, Repr

/-- The class that operands belong to. -/
def argsClass : Args → ParamClass
  | .none => .none
  | .val16 _ => .val16
  | .bytes2 _ _ => .bytes2
  | .packLf _ _ => .packLf

/-- `trunc_16((folder << 12) | (track & 0xFFF))` (R67): the folder's upper bits fall to the truncation. -/
def packLf (folder : Byte) (track : Word) : Word :=
  (folder.setWidth 16 <<< 12) ||| (track &&& 0x0FFF)

/-- The sentinel byte of a no-parameter action, 0 or 1 (R68). -/
def sentinel (k : Cfg) (a : Action) : Byte := if k.sent a then 1 else 0

/-- `params(a, args)`, the pair (PMSB, PLSB) (R65 to R68, R123). -/
def params (k : Cfg) (a : Action) : Args → Byte × Byte
  | .none => (0x00, sentinel k a)
  | .val16 v => (hiByte v, loByte v)
  | .bytes2 hi lo => (hi, lo)
  | .packLf folder track => (hiByte (packLf folder track), loByte (packLf folder track))

/-- `code(a)` (R69): PLAY's is fixed, the others are the configuration's. -/
def actionCode (k : Cfg) (a : Action) : Byte := if a = .play then PLAY_CODE else k.cat a

/-- `class(a)`, the class column of R69 (D12). -/
def actionClass : Action → ParamClass
  | .play | .volset | .eq | .loopmode | .source | .advert | .gain | .repfolderStart => .val16
  | .folder => .bytes2
  | .lfolder => .packLf
  | .pause | .stop | .next | .prev | .volup | .voldown | .standby | .normal | .sleep | .wake | .resetdev | .resume
  | .advstop | .repplayStart | .repplayStop | .repfolderStop | .repcurStart | .repcurStop | .randomall | .dacOn
  | .dacOff => .none

/-- `valid(a)` (R121): evaluated on the whole operand, before it is split. Only four actions have a rule (R157). -/
def actionValid (k : Cfg) : Action → Args → Bool
  | .volset, .val16 v => decide (v ≤ VOL_MAX)
  | .eq, .val16 e => decide (e ≤ EQ_MAX)
  | .source, .val16 s => k.srcSet.contains s
  | .gain, .val16 g => decide (g ≤ GAIN_MAX)
  | _, _ => true

/-- `trunc_TW` (R10, R11): what `cfg.TW` bits keep of a count of ticks. -/
def truncTicks (k : Cfg) (n : Nat) : Nat := n % 2 ^ k.tw

/-- A catalog entry, `(code(a), class(a), valid(a))` (R120). -/
structure CommandSpec where
  code : Byte
  paramClass : ParamClass
  valid : Args → Bool

/-- The CommandCatalog (R69, R120). -/
def catalog (k : Cfg) (a : Action) : CommandSpec where
  code := actionCode k a
  paramClass := actionClass a
  valid := actionValid k a

/-- The instructions that are `Issue(a, args)` events (R12), with their operands. -/
def issueOf : Instr → Option (Action × Args)
  | .play n => some (.play, .val16 n)
  | .pause => some (.pause, .none)
  | .stop => some (.stop, .none)
  | .next => some (.next, .none)
  | .prev => some (.prev, .none)
  | .volup => some (.volup, .none)
  | .voldown => some (.voldown, .none)
  | .volset v => some (.volset, .val16 v)
  | .eq e => some (.eq, .val16 e)
  | .loopmode m => some (.loopmode, .val16 m)
  | .source v => some (.source, .val16 v)
  | .standby => some (.standby, .none)
  | .normal => some (.normal, .none)
  | .sleep => some (.sleep, .none)
  | .wake => some (.wake, .none)
  | .resetdev => some (.resetdev, .none)
  | .resume => some (.resume, .none)
  | .folder f t => some (.folder, .bytes2 f t)
  | .lfolder f t => some (.lfolder, .packLf f t)
  | .advert n => some (.advert, .val16 n)
  | .advstop => some (.advstop, .none)
  | .gain g => some (.gain, .val16 g)
  | .repplayStart => some (.repplayStart, .none)
  | .repplayStop => some (.repplayStop, .none)
  | .repfolderStart f => some (.repfolderStart, .val16 f)
  | .repfolderStop => some (.repfolderStop, .none)
  | .repcurStart => some (.repcurStart, .none)
  | .repcurStop => some (.repcurStop, .none)
  | .randomall => some (.randomall, .none)
  | .dacOn => some (.dacOn, .none)
  | .dacOff => some (.dacOff, .none)
  | .ask _ _ _ _ | .qstatus _ | .qvolume _ | .qeq _ | .qmode _ | .qversion _ | .qcount _ _ | .qcurtrack _ _
  | .qfolders _ | .qfoldertracks _ _ | .rxframe _ _ _ _ | .rxerror _ _ _ | .rxbyte _ | .tick | .reset => none

/-- The instructions that are `Ask(q, msb, lsb, tmo)` events, with the operands a wrapper expands to (R170 to R172, R76,
R181 to R189). -/
def askOf (k : Cfg) : Instr → Option (Byte × Byte × Byte × Nat)
  | .ask q msb lsb t => some (q, msb, lsb, t)
  | .qstatus t => some (k.qcat .status, 0, 0, t)
  | .qvolume t => some (k.qcat .volume, 0, 0, t)
  | .qeq t => some (k.qcat .eq, 0, 0, t)
  | .qmode t => some (k.qcat .mode, 0, 0, t)
  | .qversion t => some (k.qcat .version, 0, 0, t)
  | .qcount med t => some (k.qcat (.count med), 0, 0, t)
  | .qcurtrack med t => some (k.qcat (.curTrack med), 0, 0, t)
  | .qfolders t => some (k.qcat .folders, 0, 0, t)
  | .qfoldertracks f t => some (k.qcat .folderTracks, hiByte f, loByte f, t)
  | .play _ | .pause | .stop | .next | .prev | .volup | .voldown | .volset _ | .eq _ | .loopmode _ | .source _
  | .standby | .normal | .sleep | .wake | .resetdev | .resume | .folder _ _ | .lfolder _ _ | .advert _ | .advstop
  | .gain _ | .repplayStart | .repplayStop | .repfolderStart _ | .repfolderStop | .repcurStart | .repcurStop
  | .randomall | .dacOn | .dacOff | .rxframe _ _ _ _ | .rxerror _ _ _ | .rxbyte _ | .tick | .reset => none

end Sys2Proof.Machine
end

