-- ==== Sys2Proof/WellFormed.lean ====
section
/-! DEFINITION. Which terms of `Instr` are operations of the spec: every operand value of the operand types is one, but for a
medium, which must be a member of `cfg.MEDIA`, and a timeout, which must fit `cfg.TW` bits. -/

namespace Sys2Proof

/-- A timeout operand is a `uTW` (00_scope.md R10, R12). -/
def fitsTicks (k : Cfg) (t : Nat) : Bool := decide (t < 2 ^ k.tw)

/-- The operands are of the types the opcode table names under the configuration `k`: QCOUNT and QCURTRACK take `med` in
`cfg.MEDIA` (43_query_correlator.md R186, R187), a query takes `tmo` in `uTW` (R171); every other operand type is a fixed
width, and holds by construction. -/
def Instr.wellFormed (k : Cfg) : Instr → Bool
  | .qcount med t => k.media.contains med && fitsTicks k t
  | .qcurtrack med t => k.media.contains med && fitsTicks k t
  | .ask _ _ _ t | .qstatus t | .qvolume t | .qeq t | .qmode t | .qversion t | .qfolders t | .qfoldertracks _ t =>
    fitsTicks k t
  | .play _ | .pause | .stop | .next | .prev | .volup | .voldown | .volset _ | .eq _ | .loopmode _ | .source _
  | .standby | .normal | .sleep | .wake | .resetdev | .resume | .folder _ _ | .lfolder _ _ | .advert _ | .advstop
  | .gain _ | .repplayStart | .repplayStop | .repfolderStart _ | .repfolderStop | .repcurStart | .repcurStop
  | .randomall | .dacOn | .dacOff | .rxframe _ _ _ _ | .rxerror _ _ _ | .rxbyte _ | .tick | .reset => true

end Sys2Proof
end

