-- ==== Sys2Proof/Decode.lean ====
section
/-! DEFINITION. The encodings of spec/opcode_table.json (30_encoding.md R60, R69, R70): a decoder, total on any bytes and
rejecting by name, and after it the encoder. Most rows of the table share one bit pattern, their command codes are OPEN, and the
timeout and the medium of a query are not in its frame; so an encoded instruction is its row, the row's bits, and those two
operands. UFB itself fetches no such words: a host operation is a value of the event type (R63), and bytes received are
decoded by the receive unit (Machine/Ops.lean). -/

namespace Sys2Proof
open Machine

/-- What the opcode table gives an instruction. -/
structure Encoded where
  /-- the row of spec/opcode_table.json, counted from 0 -/
  row : Nat
  /-- the row's "encoding" column as bytes, offset 0 first: ten, one (RXBYTE) or none (TICK, RESET) -/
  bits : List Byte
  /-- the medium operand, which no frame carries; 0 where the row has none -/
  med : Medium := 0
  /-- the timeout operand, which no frame carries; 0 where the row has none -/
  tmo : Nat := 0
  deriving DecidableEq, Repr

/-- Why bytes are no instruction. -/
inductive DecodeError where
  /-- the table has no such row -/
  | noSuchRow
  /-- not as many bytes as the row's encoding has -/
  | wrongLength
  /-- offset 0 is not START -/
  | badStart
  /-- offset 1 is not VERSION -/
  | badVersion
  /-- offset 2 is not LENGTH -/
  | badLength
  /-- offset 9 is not END -/
  | badEnd
  /-- offsets 7 and 8 are not the checksum -/
  | badChecksum
  /-- a frame UFB would send carries another feedback byte -/
  | badFeedback
  /-- offset 3 is not the row's command code -/
  | wrongCode
  /-- fixed parameter bits of the row differ -/
  | badParams
  /-- the operand fails the action's validity rule, so no frame is sent for it -/
  | notSent
  /-- the medium is not in `cfg.MEDIA` -/
  | notAMedium
  /-- the timeout does not fit `cfg.TW` bits -/
  | timeoutTooWide
  /-- an operand is present that the row does not have -/
  | strayOperand
  deriving DecidableEq, Repr

/-- The first 31 rows of the table. -/
def actionRows : List Action :=
  [.play, .pause, .stop, .next, .prev, .volup, .voldown, .volset, .eq, .loopmode, .source, .standby, .normal, .sleep,
    .wake, .resetdev, .resume, .folder, .lfolder, .advert, .advstop, .gain, .repplayStart, .repplayStop, .repfolderStart,
    .repfolderStop, .repcurStart, .repcurStop, .randomall, .dacOn, .dacOff]

/-- The instruction that issues an action with operands of its class. -/
def instrOfIssue : Action → Args → Option Instr
  | .play, .val16 n => some (.play n)
  | .pause, .none => some .pause
  | .stop, .none => some .stop
  | .next, .none => some .next
  | .prev, .none => some .prev
  | .volup, .none => some .volup
  | .voldown, .none => some .voldown
  | .volset, .val16 v => some (.volset v)
  | .eq, .val16 e => some (.eq e)
  | .loopmode, .val16 m => some (.loopmode m)
  | .source, .val16 v => some (.source v)
  | .standby, .none => some .standby
  | .normal, .none => some .normal
  | .sleep, .none => some .sleep
  | .wake, .none => some .wake
  | .resetdev, .none => some .resetdev
  | .resume, .none => some .resume
  | .folder, .bytes2 f t => some (.folder f t)
  | .lfolder, .packLf f t => some (.lfolder f t)
  | .advert, .val16 n => some (.advert n)
  | .advstop, .none => some .advstop
  | .gain, .val16 g => some (.gain g)
  | .repplayStart, .none => some .repplayStart
  | .repplayStop, .none => some .repplayStop
  | .repfolderStart, .val16 f => some (.repfolderStart f)
  | .repfolderStop, .none => some .repfolderStop
  | .repcurStart, .none => some .repcurStart
  | .repcurStop, .none => some .repcurStop
  | .randomall, .none => some .randomall
  | .dacOn, .none => some .dacOn
  | .dacOff, .none => some .dacOff
  | _, _ => none

/-- The operands that the two parameter bytes of a frame carry, by class (R65 to R68). -/
def argsOfFrame (k : Cfg) (a : Action) (F : Frame) : Except DecodeError Args :=
  match actionClass a with
  | .none => if F.pmsb = 0 ∧ F.plsb = sentinel k a then .ok .none else .error .badParams
  | .val16 => .ok (.val16 (frameValue F))
  | .bytes2 => .ok (.bytes2 F.pmsb F.plsb)
  | .packLf => .ok (.packLf (F.pmsb >>> 4) (frameValue F &&& 0x0FFF))

/-- The fixed bits of the one format (R60), the checks in order of offset, then the checksum (R61). -/
def checkFrame (bits : List Byte) : Except DecodeError Frame :=
  match frameOfBytes bits with
  | none => .error .wrongLength
  | some F =>
    if F.start ≠ START then .error .badStart
    else if F.ver ≠ VERSION then .error .badVersion
    else if F.len ≠ LENGTH then .error .badLength
    else if F.endm ≠ ENDMARK then .error .badEnd
    else if frameChecksum F ≠ checksumOf F then .error .badChecksum
    else .ok F

/-- A row of an action: the frame it sends, and no other operand. -/
def decodeIssue (k : Cfg) (a : Action) (F : Frame) (w : Encoded) : Except DecodeError Instr :=
  if F.fb ≠ k.fbDefault then .error .badFeedback
  else if F.cmd ≠ actionCode k a then .error .wrongCode
  else if w.med ≠ 0 ∨ w.tmo ≠ 0 then .error .strayOperand
  else
    match argsOfFrame k a F with
    | .error e => .error e
    | .ok args =>
      if actionValid k a args = false then .error .notSent
      else match instrOfIssue a args with
        | some i => .ok i
        | none => .error .badParams

/-- A row of a query without a parameter or a medium: the frame it sends carries zero parameter bytes (R172). -/
def decodePlainQuery (k : Cfg) (q : Query) (F : Frame) (w : Encoded) (i : Instr) : Except DecodeError Instr :=
  if F.fb ≠ k.fbDefault then .error .badFeedback
  else if F.cmd ≠ k.qcat q then .error .wrongCode
  else if F.pmsb ≠ 0 ∨ F.plsb ≠ 0 then .error .badParams
  else if w.med ≠ 0 then .error .strayOperand
  else if fitsTicks k w.tmo = false then .error .timeoutTooWide
  else .ok i

/-- A row of a query of a medium (R186, R187). -/
def decodeMediumQuery (k : Cfg) (q : Query) (F : Frame) (w : Encoded) (i : Instr) : Except DecodeError Instr :=
  if k.media.contains w.med = false then .error .notAMedium
  else if F.fb ≠ k.fbDefault then .error .badFeedback
  else if F.cmd ≠ k.qcat q then .error .wrongCode
  else if F.pmsb ≠ 0 ∨ F.plsb ≠ 0 then .error .badParams
  else if fitsTicks k w.tmo = false then .error .timeoutTooWide
  else .ok i

/-- ASK: any command code and any parameter bytes (R171). -/
def decodeAsk (k : Cfg) (F : Frame) (w : Encoded) : Except DecodeError Instr :=
  if F.fb ≠ k.fbDefault then .error .badFeedback
  else if w.med ≠ 0 then .error .strayOperand
  else if fitsTicks k w.tmo = false then .error .timeoutTooWide
  else .ok (.ask F.cmd F.pmsb F.plsb w.tmo)

/-- QFOLDERTRACKS: the folder in the parameter bytes (R189). -/
def decodeFolderTracks (k : Cfg) (F : Frame) (w : Encoded) : Except DecodeError Instr :=
  if F.fb ≠ k.fbDefault then .error .badFeedback
  else if F.cmd ≠ k.qcat .folderTracks then .error .wrongCode
  else if w.med ≠ 0 then .error .strayOperand
  else if fitsTicks k w.tmo = false then .error .timeoutTooWide
  else .ok (.qfoldertracks (frameValue F) w.tmo)

/-- The rows whose encoding is a frame: 0 to 30 the actions, 31 ASK, 32 to 40 the wrappers, 41 RXFRAME, 42 RXERROR. -/
def decodeFrameRow (k : Cfg) (F : Frame) (w : Encoded) : Except DecodeError Instr :=
  match w.row with
  | 31 => decodeAsk k F w
  | 32 => decodePlainQuery k .status F w (.qstatus w.tmo)
  | 33 => decodePlainQuery k .volume F w (.qvolume w.tmo)
  | 34 => decodePlainQuery k .eq F w (.qeq w.tmo)
  | 35 => decodePlainQuery k .mode F w (.qmode w.tmo)
  | 36 => decodePlainQuery k .version F w (.qversion w.tmo)
  | 37 => decodeMediumQuery k (.count w.med) F w (.qcount w.med w.tmo)
  | 38 => decodeMediumQuery k (.curTrack w.med) F w (.qcurtrack w.med w.tmo)
  | 39 => decodePlainQuery k .folders F w (.qfolders w.tmo)
  | 40 => decodeFolderTracks k F w
  | 41 =>
    if w.med ≠ 0 ∨ w.tmo ≠ 0 then .error .strayOperand
    else .ok (.rxframe F.cmd F.fb F.pmsb F.plsb)
  | 42 =>
    if F.cmd ≠ ERR_CODE then .error .wrongCode
    else if w.med ≠ 0 ∨ w.tmo ≠ 0 then .error .strayOperand
    else .ok (.rxerror F.fb F.pmsb F.plsb)
  | n =>
    match actionRows[n]? with
    | some a => decodeIssue k a F w
    | none => .error .noSuchRow

/-- The decoder: total, rejecting by name. -/
def decode (k : Cfg) (w : Encoded) : Except DecodeError Instr :=
  match w.row with
  | 43 =>
    if w.med ≠ 0 ∨ w.tmo ≠ 0 then .error .strayOperand
    else match w.bits with
      | [b] => .ok (.rxbyte b)
      | _ => .error .wrongLength
  | 44 =>
    if w.med ≠ 0 ∨ w.tmo ≠ 0 then .error .strayOperand
    else if w.bits = [] then .ok .tick else .error .wrongLength
  | 45 =>
    if w.med ≠ 0 ∨ w.tmo ≠ 0 then .error .strayOperand
    else if w.bits = [] then .ok .reset else .error .wrongLength
  | _ =>
    if 45 < w.row then .error .noSuchRow
    else match checkFrame w.bits with
      | .error e => .error e
      | .ok F => decodeFrameRow k F w

/-- The row of an instruction in spec/opcode_table.json, counted from 0. -/
def rowOf : Instr → Nat
  | .play _ => 0
  | .pause => 1
  | .stop => 2
  | .next => 3
  | .prev => 4
  | .volup => 5
  | .voldown => 6
  | .volset _ => 7
  | .eq _ => 8
  | .loopmode _ => 9
  | .source _ => 10
  | .standby => 11
  | .normal => 12
  | .sleep => 13
  | .wake => 14
  | .resetdev => 15
  | .resume => 16
  | .folder _ _ => 17
  | .lfolder _ _ => 18
  | .advert _ => 19
  | .advstop => 20
  | .gain _ => 21
  | .repplayStart => 22
  | .repplayStop => 23
  | .repfolderStart _ => 24
  | .repfolderStop => 25
  | .repcurStart => 26
  | .repcurStop => 27
  | .randomall => 28
  | .dacOn => 29
  | .dacOff => 30
  | .ask _ _ _ _ => 31
  | .qstatus _ => 32
  | .qvolume _ => 33
  | .qeq _ => 34
  | .qmode _ => 35
  | .qversion _ => 36
  | .qcount _ _ => 37
  | .qcurtrack _ _ => 38
  | .qfolders _ => 39
  | .qfoldertracks _ _ => 40
  | .rxframe _ _ _ _ => 41
  | .rxerror _ _ _ => 42
  | .rxbyte _ => 43
  | .tick => 44
  | .reset => 45

/-- The frame that stands in an instruction's row of the table: the frame an action or a query sends, the frame received. -/
def wireFrame (k : Cfg) (i : Instr) : Option Frame :=
  match issueOf i, askOf k i, i with
  | some (a, args), _, _ => some (encodeFrame (actionCode k a) k.fbDefault (params k a args).1 (params k a args).2)
  | none, some (q, m, l, _), _ => some (encodeFrame q k.fbDefault m l)
  | none, none, .rxframe c f m l => some (encodeFrame c f m l)
  | none, none, .rxerror f m l => some (encodeFrame ERR_CODE f m l)
  | none, none, _ => none

/-- The bits of the "encoding" column: a frame, the byte of RXBYTE, nothing for TICK and RESET. -/
def encodedBits (k : Cfg) (i : Instr) : List Byte :=
  match wireFrame k i, i with
  | some F, _ => frameBytes F
  | none, .rxbyte b => [b]
  | none, _ => []

/-- The medium operand. -/
def encodedMed : Instr → Medium
  | .qcount med _ => med
  | .qcurtrack med _ => med
  | _ => 0

/-- The timeout operand. -/
def encodedTmo (k : Cfg) (i : Instr) : Nat :=
  match askOf k i with
  | some (_, _, _, t) => t
  | none => 0

/-- The encoder. -/
def encode (k : Cfg) (i : Instr) : Encoded :=
  { row := rowOf i, bits := encodedBits k i, med := encodedMed i, tmo := encodedTmo k i }

/-- The operand values the encoding admits: a frame is sent for them (R121) and PACK_LF loses nothing of them (R67). -/
def Instr.encodable (k : Cfg) (i : Instr) : Bool :=
  i.wellFormed k
    && match issueOf i with
      | some (a, .packLf f t) => actionValid k a (.packLf f t) && decide (f.toNat < 16) && decide (t.toNat < 4096)
      | some (a, args) => actionValid k a args
      | none => true

/-- The row a bare word is read as, where nothing but its bits is given: no bits TICK; one byte RXBYTE; a frame PLAY where
it is a frame PLAY sends, RXERROR where it has the error-report code, else RXFRAME. These are the rows whose bits the spec
fixes; DESIGN CHOICE, safe (log 10). -/
def bareRow (k : Cfg) (bits : List Byte) : Nat :=
  match bits with
  | [] => 44
  | [_] => 43
  | _ =>
    match frameOfBytes bits with
    | some F => if F.cmd = PLAY_CODE ∧ F.fb = k.fbDefault then 0 else if F.cmd = ERR_CODE then 42 else 41
    | none => 41

/-- A bare word read as the row its bits name. -/
def decodeBare (k : Cfg) (bits : List Byte) : Except DecodeError Instr :=
  decode k { row := bareRow k bits, bits := bits }

/-- The bytes of the number `w`, the least significant first. -/
def bytesOfNat : Nat → Nat → List Byte
  | 0, _ => []
  | n + 1, w => BitVec.ofNat 8 w :: bytesOfNat n (w / 256)

/-- The bytes of a table word, offset 0 first. A word numbered from its first byte up has START in bits 7..0; the table's own
"match" and "mask" write offset 0 as the most significant byte, so such a word ends in START: the marker tells which
(log 10). -/
def tableBytes (nbits w : Nat) : List Byte :=
  let up := bytesOfNat (nbits / 8) w
  if up.length = FRAME_BYTES ∧ up.getLast? = some START ∧ up.head? ≠ some START then up.reverse else up

/-- The configuration a bare table word is read under: `cfg` with the feedback byte the opcode table notes as the default, 0x00,
since the byte of `cfg` is open. It serves to name the row of a bare word, and no step reads it (log 10). -/
def tableCfg : Cfg := { cfg with fbDefault := 0x00 }

/-- The instruction the decoder reads from a bare table word. -/
def decodeTableWord (nbits w : Nat) : Option Instr :=
  match decodeBare tableCfg (tableBytes nbits w) with
  | .ok i => some i
  | .error _ => none

end Sys2Proof
end

