-- ==== Sys2Proof/Machine/State.lean ====
section
/-! DEFINITION. The state of the UART frame block (10_state.md R20), its output events (00_scope.md R12), the ways a step can
stop, and the state after reset (R35). -/

namespace Sys2Proof.Machine

/-- The parser position (R21): ten states, each the frame offset it awaits. A realisation's four-bit codes 10 to 15 are
unreachable there and have no value here (log 12). -/
inductive Pos where
  | awaitStart | awaitVersion | awaitLength | awaitCommand | awaitFeedback | awaitParamMsb | awaitParamLsb
  | awaitChecksumMsb | awaitChecksumLsb | awaitEnd
  deriving DecidableEq, Repr

/-- `FailKind` (R12): the check that failed. -/
inductive FailKind where
  | badVersion | badLength | badChecksum | badEnd
  deriving DecidableEq, Repr

/-- `Res` (R12): the result of an `ask`. -/
inductive Res where
  | value (v : Word)
  | deviceError (code : Byte) (cause : Cause)
  | timeout
  | busy
  deriving DecidableEq, Repr

/-- `OutEvent` (R12). -/
inductive OutEvent where
  /-- ten bytes appended to `tx` -/
  | tx (F : Frame)
  /-- soft failure signal -/
  | decodeFail (kind : FailKind)
  /-- to the external event sink -/
  | sink (F : Frame) (cause : Option Cause)
  /-- to the caller of `ask` -/
  | qresult (res : Res)
  deriving DecidableEq, Repr

/-- The architectural state of R20, the two streams of R31, and the model's own count of free values. -/
structure State where
  /-- parser position (R21) -/
  pos : Pos
  /-- the in-progress Frame (R22) -/
  rxf : Frame
  /-- a PendingQuery exists (R25) -/
  pend : Bool
  /-- command code expected in the reply (R26) -/
  expc : Byte
  /-- issue timestamp (R27), a `uTW` (log 8) -/
  tstart : Nat
  /-- timeout threshold (R28), a `uTW` (log 8) -/
  tmo : Nat
  /-- monotonic tick counter (R29), a `uTW` (log 8) -/
  now : Nat
  /-- the output byte stream (R31, R40): append-only, read by no rule -/
  tx : List Byte
  /-- the output events of the run so far, oldest first (R12, R257): an observation, read by no rule (R32; log 3) -/
  out : List OutEvent
  /-- the input events not yet taken, next first (R31, R34; log 1) -/
  inq : List Instr
  /-- how many free values have been drawn: the model's own (log 5) -/
  freeCount : Nat
  deriving DecidableEq, Repr

/-- UFB has no fault state: "No error is ever fatal to the protocol layer itself" (60_exceptions.md R215). -/
inductive Fault where
  deriving DecidableEq, Repr

/-- Why a step has no meaning. -/
inductive Refusal where
  /-- raised by an arm of `exec` whose instruction has no meaning yet; no arm is such. Safe: the model stops. -/
  | notModelled (mnemonic : String)
  deriving DecidableEq, Repr

/-- The state after reset (R35): AwaitStart, no query pending, the tick counter zero, nothing sent and nothing waiting.
`RXF`, `expc`, `tstart` and `tmo` are unspecified there; zero is a DESIGN CHOICE, unsafe where a proof leans on it
(log 4). -/
def State.reset : State where
  pos := .awaitStart
  rxf := ⟨0, 0, 0, 0, 0, 0, 0, 0, 0, 0⟩
  pend := false
  expc := 0
  tstart := 0
  tmo := 0
  now := 0
  tx := []
  out := []
  inq := []
  freeCount := 0

end Sys2Proof.Machine
end

