-- ==== Sys2Proof/Machine/Flags.lean ====
section
/-! DEFINITION. The tests that decide what becomes of `pend`, UFB's one flag (10_state.md R25): the two matches of routing and
the deadline. -/

namespace Sys2Proof.Machine

/-- First test of routing (43_query_correlator.md R173): a query is pending and the frame is an error report. -/
def isDeviceError (s : State) (F : Frame) : Bool := s.pend && F.cmd == ERR_CODE

/-- Second test of routing (R173): a query is pending and the frame has the code it expects. -/
def isReply (s : State) (F : Frame) : Bool := s.pend && F.cmd == s.expc

/-- `trunc_TW(now - tstart)`, the subtraction modulo `2 ^ cfg.TW` (R178). -/
def elapsedTicks (k : Cfg) (now tstart : Nat) : Nat := truncTicks k (now + (2 ^ k.tw - truncTicks k tstart))

/-- The deadline comparison of R178: `trunc_TW(now - tstart) >= tmo`, unsigned. -/
def deadlineReached (k : Cfg) (now tstart tmo : Nat) : Bool := decide (tmo ≤ elapsedTicks k now tstart)

end Sys2Proof.Machine
end

