-- ==== Sys2Proof/Machine/Ops.lean ====
section
/-! DEFINITION. The shared operations of UFB: output, the two ways a condition is taken (60_exceptions.md R210, R223, R224),
the transmit unit's `Issue` (42_catalog_dispatch.md R124), the receive unit's ten rules (41_frameparser.md R100 to R110),
routing, `Ask`, `Tick` (43_query_correlator.md R170 to R180), `Reset` (70_reset_and_hazards.md R240), and taking the next
input event. Each is a function of the configuration and the state; every one is total (R215). -/

namespace Sys2Proof.Machine

/-- `out E` (00_scope.md R11). -/
def output (e : OutEvent) (s : State) : State := { s with out := s.out ++ [e] }

/-- `TxFrame(F); out Tx(F)` (20_memory.md R44): the ten bytes, offset 0 first, in one step. -/
def sendFrame (F : Frame) (s : State) : State := output (.tx F) { s with tx := s.tx ++ frameBytes F }

/-- Taking a framing error (R223): nothing is saved, `RXF` is left as it is, the parser is back in AwaitStart, and one
`DecodeFail` is put out (41_frameparser.md R115). There is no return from it (R225). -/
def decodeFail (kind : FailKind) (s : State) : State := output (.decodeFail kind) { s with pos := .awaitStart }

/-- Resolving the PendingQuery (R224): `pend <- 0` and one `QResult`; nothing is saved. -/
def resolve (r : Res) (s : State) : State := output (.qresult r) { s with pend := false }

/-- The `Issue` step (R124): look the action up, check the operands on the whole value, send; an invalid operand is a silent
no-op (R122). -/
def issue (k : Cfg) (a : Action) (args : Args) (s : State) : State :=
  let spec := catalog k a
  if spec.valid args then
    sendFrame (encodeFrame spec.code k.fbDefault (params k a args).1 (params k a args).2) s
  else s

/-- `Ask(q, msb, lsb, tmo)`: Busy while a query is pending (R170), else the frame is sent and the query registered (R171). The
register `tmo` keeps `cfg.TW` bits, which is all of a `uTW` operand (log 11). -/
def ask (k : Cfg) (q msb lsb : Byte) (t : Nat) (s : State) : State :=
  if s.pend then output (.qresult .busy) s
  else
    { sendFrame (encodeFrame q k.fbDefault msb lsb) s with
      pend := true, expc := k.expect q, tstart := s.now, tmo := truncTicks k t }

/-- The cause a frame carries to the sink: an error report's, translated (R176). -/
def sinkCause (k : Cfg) (F : Frame) : Option Cause :=
  if F.cmd = ERR_CODE then some (describe k F.plsb) else none

/-- Routing of an emitted frame (R173): device error (R174), value (R175), passthrough (R176), in that order. -/
def route (k : Cfg) (F : Frame) (s : State) : State :=
  if isDeviceError s F then resolve (.deviceError F.plsb (describe k F.plsb)) s
  else if isReply s F then resolve (.value (frameValue F)) s
  else output (.sink F (sinkCause k F)) s

/-- AwaitStart (R100): any byte but the start marker is discarded without a word. -/
def rxAwaitStart (b : Byte) (s : State) : State :=
  if b = START then { s with rxf := { s.rxf with start := b }, pos := .awaitVersion } else s

/-- AwaitVersion (R101). -/
def rxAwaitVersion (b : Byte) (s : State) : State :=
  if b = VERSION then { s with rxf := { s.rxf with ver := b }, pos := .awaitLength } else decodeFail .badVersion s

/-- AwaitLength (R102). -/
def rxAwaitLength (b : Byte) (s : State) : State :=
  if b = LENGTH then { s with rxf := { s.rxf with len := b }, pos := .awaitCommand } else decodeFail .badLength s

/-- AwaitCommand (R103). -/
def rxAwaitCommand (b : Byte) (s : State) : State := { s with rxf := { s.rxf with cmd := b }, pos := .awaitFeedback }

/-- AwaitFeedback (R104). -/
def rxAwaitFeedback (b : Byte) (s : State) : State := { s with rxf := { s.rxf with fb := b }, pos := .awaitParamMsb }

/-- AwaitParamMSB (R105). -/
def rxAwaitParamMsb (b : Byte) (s : State) : State := { s with rxf := { s.rxf with pmsb := b }, pos := .awaitParamLsb }

/-- AwaitParamLSB (R106). -/
def rxAwaitParamLsb (b : Byte) (s : State) : State := { s with rxf := { s.rxf with plsb := b }, pos := .awaitChecksumMsb }

/-- AwaitChecksumMSB (R107): no comparison on this byte alone. -/
def rxAwaitChecksumMsb (b : Byte) (s : State) : State :=
  { s with rxf := { s.rxf with ckmsb := b }, pos := .awaitChecksumLsb }

/-- AwaitChecksumLSB (R108): captured in either case, then the whole 16 bits compared. -/
def rxAwaitChecksumLsb (b : Byte) (s : State) : State :=
  let s1 := { s with rxf := { s.rxf with cklsb := b } }
  if frameChecksum s1.rxf = checksumOf s1.rxf then { s1 with pos := .awaitEnd } else decodeFail .badChecksum s1

/-- AwaitEnd (R110): the completed frame is routed within the same step (R109). -/
def rxAwaitEnd (k : Cfg) (b : Byte) (s : State) : State :=
  if b = ENDMARK then
    let F := { s.rxf with endm := b }
    route k F { s with rxf := F, pos := .awaitStart }
  else decodeFail .badEnd s

/-- `RxByte(b)`: the rule that `pos` selects (R111, R116). The failing byte is consumed in every case (R112). -/
def rxByte (k : Cfg) (b : Byte) (s : State) : State :=
  match s.pos with
  | .awaitStart => rxAwaitStart b s
  | .awaitVersion => rxAwaitVersion b s
  | .awaitLength => rxAwaitLength b s
  | .awaitCommand => rxAwaitCommand b s
  | .awaitFeedback => rxAwaitFeedback b s
  | .awaitParamMsb => rxAwaitParamMsb b s
  | .awaitParamLsb => rxAwaitParamLsb b s
  | .awaitChecksumMsb => rxAwaitChecksumMsb b s
  | .awaitChecksumLsb => rxAwaitChecksumLsb b s
  | .awaitEnd => rxAwaitEnd k b s

/-- A driving call (20_memory.md R42): consecutive `RxByte` steps in stream order. -/
def drive (k : Cfg) : List Byte → State → State
  | [], s => s
  | b :: bs, s => drive k bs (rxByte k b s)

/-- `Tick` (R178): the counter goes up, then the deadline is compared; Timeout (R179). -/
def tickEvent (k : Cfg) (s : State) : State :=
  let s1 := { s with now := truncTicks k (s.now + 1) }
  if s1.pend && deadlineReached k s1.now s1.tstart s1.tmo then resolve .timeout s1 else s1

/-- The bytes the k-th and following free values give a frame (log 5). -/
def freeFrame (n : Nat) : Frame :=
  ⟨Config.freeByte n, Config.freeByte (n + 1), Config.freeByte (n + 2), Config.freeByte (n + 3), Config.freeByte (n + 4),
    Config.freeByte (n + 5), Config.freeByte (n + 6), Config.freeByte (n + 7), Config.freeByte (n + 8), Config.freeByte (n + 9)⟩

/-- The `Reset` event (R240, R241): `pos`, `pend` and `now` at their reset values, no output, `tx` and the bytes not yet
delivered untouched, a pending query dropped without a result. What R35 leaves unspecified (`RXF`, `expc`, `tstart`,
`tmo`) takes free values (log 5). -/
def resetEvent (k : Cfg) (s : State) : State :=
  { s with
    pos := .awaitStart, pend := false, now := 0,
    rxf := freeFrame s.freeCount,
    expc := Config.freeByte (s.freeCount + 10),
    tstart := truncTicks k (Config.freeTicks s.freeCount),
    tmo := truncTicks k (Config.freeTicks (s.freeCount + 1)),
    freeCount := s.freeCount + 11 }

/-- The next input event and the state without it: an event is delivered once, in order (20_memory.md R41, R49). -/
def takeEvent (s : State) : Option (Instr × State) :=
  match s.inq with
  | [] => none
  | i :: rest => some (i, { s with inq := rest })

/-- The bytes of `rx` that wait in the input queue (R31, R40). -/
def pendingRx (s : State) : List Byte :=
  s.inq.flatMap (fun i => match i with
    | .rxbyte b => [b]
    | .rxframe c f m l => frameBytes (encodeFrame c f m l)
    | .rxerror f m l => frameBytes (encodeFrame ERR_CODE f m l)
    | _ => [])

/-- The events of one clock cycle of a clocked realisation, in the order they must be taken: received byte, then tick, then
host operation (60_exceptions.md R222; D5). -/
def sameCycle (byte : Option Byte) (ticked : Bool) (op : Option Instr) : List Instr :=
  (match byte with | some b => [.rxbyte b] | none => [])
    ++ (if ticked then [.tick] else [])
    ++ (match op with | some i => [i] | none => [])

/-- A line of the event script (30_encoding.md R75): the notation for runs, with no meaning but the events it stands for. -/
inductive ScriptLine where
  /-- `reset` -/
  | reset
  /-- `rx B0 B1 ... Bn` -/
  | rx (bytes : List Byte)
  /-- `tick k` -/
  | tick (k : Nat)
  /-- a mnemonic with its operands -/
  | op (i : Instr)
  deriving DecidableEq, Repr

/-- The input events a script line stands for (R75). -/
def lineEvents : ScriptLine → List Instr
  | .reset => [.reset]
  | .rx bytes => bytes.map .rxbyte
  | .tick k => List.replicate k .tick
  | .op i => [i]

/-- The environment presents events: they wait behind those already there, losing and reordering nothing (R34). -/
def present (es : List Instr) (s : State) : State := { s with inq := s.inq ++ es }

end Sys2Proof.Machine
end

