-- ==== Sys2Proof/Machine/Dispatcher.lean ====
section
/-! DEFINITION. CommandDispatcher: the 31 control actions (42_catalog_dispatch.md R126 to R156), each an `Issue` step (R124) with
its operands in the class of its catalog entry. Fire-and-forget (R125): no register is read or written. -/

namespace Sys2Proof.Machine

/-- PLAY: code 0x0D, class VAL16, never range-checked (R126). -/
def execPlay (n : Word) (s : State) : Host.Outcome State Fault Refusal := .next (issue cfg .play (.val16 n) s)

/-- PAUSE: class NONE (R127). -/
def execPause (s : State) : Host.Outcome State Fault Refusal := .next (issue cfg .pause .none s)

/-- STOP: class NONE (R128). -/
def execStop (s : State) : Host.Outcome State Fault Refusal := .next (issue cfg .stop .none s)

/-- NEXT: class NONE (R129). -/
def execNext (s : State) : Host.Outcome State Fault Refusal := .next (issue cfg .next .none s)

/-- PREV: class NONE (R130). -/
def execPrev (s : State) : Host.Outcome State Fault Refusal := .next (issue cfg .prev .none s)

/-- VOLUP: class NONE; UFB keeps no copy of the volume (R131). -/
def execVolup (s : State) : Host.Outcome State Fault Refusal := .next (issue cfg .volup .none s)

/-- VOLDOWN: class NONE (R132). -/
def execVoldown (s : State) : Host.Outcome State Fault Refusal := .next (issue cfg .voldown .none s)

/-- VOLSET: class VAL16, sent iff `v <= 30` (R133). -/
def execVolset (v : Word) (s : State) : Host.Outcome State Fault Refusal := .next (issue cfg .volset (.val16 v) s)

/-- EQ: class VAL16, sent iff `e <= 5` (R134). -/
def execEq (e : Word) (s : State) : Host.Outcome State Fault Refusal := .next (issue cfg .eq (.val16 e) s)

/-- LOOPMODE: class VAL16, no range (R135). -/
def execLoopmode (m : Word) (s : State) : Host.Outcome State Fault Refusal := .next (issue cfg .loopmode (.val16 m) s)

/-- SOURCE: class VAL16, sent iff the value is in `cfg.SRC_SET` (R136). -/
def execSource (v : Word) (s : State) : Host.Outcome State Fault Refusal := .next (issue cfg .source (.val16 v) s)

/-- STANDBY: class NONE; no power state of UFB changes (R231) (R137). -/
def execStandby (s : State) : Host.Outcome State Fault Refusal := .next (issue cfg .standby .none s)

/-- NORMAL: class NONE (R138). -/
def execNormal (s : State) : Host.Outcome State Fault Refusal := .next (issue cfg .normal .none s)

/-- SLEEP: class NONE; UFB itself does not sleep (R139). -/
def execSleep (s : State) : Host.Outcome State Fault Refusal := .next (issue cfg .sleep .none s)

/-- WAKE: class NONE (R140). -/
def execWake (s : State) : Host.Outcome State Fault Refusal := .next (issue cfg .wake .none s)

/-- RESETDEV: asks the device to reset; not the `Reset` event, and no state of UFB changes (R141). -/
def execResetdev (s : State) : Host.Outcome State Fault Refusal := .next (issue cfg .resetdev .none s)

/-- RESUME: class NONE (R142). -/
def execResume (s : State) : Host.Outcome State Fault Refusal := .next (issue cfg .resume .none s)

/-- FOLDER: class BYTES2, folder in PMSB and track in PLSB (R143). -/
def execFolder (f t : Byte) (s : State) : Host.Outcome State Fault Refusal := .next (issue cfg .folder (.bytes2 f t) s)

/-- LFOLDER: class PACK_LF, truncating (R144). -/
def execLfolder (f : Byte) (t : Word) (s : State) : Host.Outcome State Fault Refusal := .next (issue cfg .lfolder (.packLf f t) s)

/-- ADVERT: class VAL16 (R145). -/
def execAdvert (n : Word) (s : State) : Host.Outcome State Fault Refusal := .next (issue cfg .advert (.val16 n) s)

/-- ADVSTOP: class NONE (R146). -/
def execAdvstop (s : State) : Host.Outcome State Fault Refusal := .next (issue cfg .advstop .none s)

/-- GAIN: class VAL16, sent iff `g <= 31` (R147). -/
def execGain (g : Word) (s : State) : Host.Outcome State Fault Refusal := .next (issue cfg .gain (.val16 g) s)

/-- REPPLAY_START: class NONE (R148). -/
def execRepplayStart (s : State) : Host.Outcome State Fault Refusal := .next (issue cfg .repplayStart .none s)

/-- REPPLAY_STOP: class NONE (R149). -/
def execRepplayStop (s : State) : Host.Outcome State Fault Refusal := .next (issue cfg .repplayStop .none s)

/-- REPFOLDER_START: class VAL16 (R150). -/
def execRepfolderStart (f : Word) (s : State) : Host.Outcome State Fault Refusal := .next (issue cfg .repfolderStart (.val16 f) s)

/-- REPFOLDER_STOP: class NONE (R151). -/
def execRepfolderStop (s : State) : Host.Outcome State Fault Refusal := .next (issue cfg .repfolderStop .none s)

/-- REPCUR_START: class NONE (R152). -/
def execRepcurStart (s : State) : Host.Outcome State Fault Refusal := .next (issue cfg .repcurStart .none s)

/-- REPCUR_STOP: class NONE (R153). -/
def execRepcurStop (s : State) : Host.Outcome State Fault Refusal := .next (issue cfg .repcurStop .none s)

/-- RANDOMALL: class NONE (R154). -/
def execRandomall (s : State) : Host.Outcome State Fault Refusal := .next (issue cfg .randomall .none s)

/-- DAC_ON: class NONE (R155). -/
def execDacOn (s : State) : Host.Outcome State Fault Refusal := .next (issue cfg .dacOn .none s)

/-- DAC_OFF: class NONE (R156). -/
def execDacOff (s : State) : Host.Outcome State Fault Refusal := .next (issue cfg .dacOff .none s)

end Sys2Proof.Machine
end

