-- ==== Sys2Proof/Machine/Query.lean ====
section
/-! DEFINITION. QueryCorrelator's host operations: ASK (43_query_correlator.md R170, R171) and the nine wrappers (R181 to R189),
each of which expands to one ASK (30_encoding.md R76) with its code from `cfg.QCAT` and zero parameter bytes (R172). -/

namespace Sys2Proof.Machine

/-- ASK: Busy while a query is pending (R170), else sends and registers (R171). No operand is checked. -/
def execAsk (q msb lsb : Byte) (t : Nat) (s : State) : Host.Outcome State Fault Refusal := .next (ask cfg q msb lsb t s)

/-- QSTATUS (R181). -/
def execQstatus (t : Nat) (s : State) : Host.Outcome State Fault Refusal := .next (ask cfg (cfg.qcat .status) 0 0 t s)

/-- QVOLUME (R182). -/
def execQvolume (t : Nat) (s : State) : Host.Outcome State Fault Refusal := .next (ask cfg (cfg.qcat .volume) 0 0 t s)

/-- QEQ (R183). -/
def execQeq (t : Nat) (s : State) : Host.Outcome State Fault Refusal := .next (ask cfg (cfg.qcat .eq) 0 0 t s)

/-- QMODE (R184). -/
def execQmode (t : Nat) (s : State) : Host.Outcome State Fault Refusal := .next (ask cfg (cfg.qcat .mode) 0 0 t s)

/-- QVERSION (R185). -/
def execQversion (t : Nat) (s : State) : Host.Outcome State Fault Refusal := .next (ask cfg (cfg.qcat .version) 0 0 t s)

/-- QCOUNT (R186). A medium outside `cfg.MEDIA` is no operand of the spec; the step is the same (log 11). -/
def execQcount (med : Medium) (t : Nat) (s : State) : Host.Outcome State Fault Refusal := .next (ask cfg (cfg.qcat (.count med)) 0 0 t s)

/-- QCURTRACK (R187). A medium outside `cfg.MEDIA` is no operand of the spec; the step is the same (log 11). -/
def execQcurtrack (med : Medium) (t : Nat) (s : State) : Host.Outcome State Fault Refusal := .next (ask cfg (cfg.qcat (.curTrack med)) 0 0 t s)

/-- QFOLDERS (R188). -/
def execQfolders (t : Nat) (s : State) : Host.Outcome State Fault Refusal := .next (ask cfg (cfg.qcat .folders) 0 0 t s)

/-- QFOLDERTRACKS (R189): the folder index in the parameter bytes, high byte first. -/
def execQfoldertracks (f : Word) (t : Nat) (s : State) : Host.Outcome State Fault Refusal :=
  .next (ask cfg (cfg.qcat .folderTracks) (hiByte f) (loByte f) t s)

end Sys2Proof.Machine
end

