-- ==== Sys2Proof/Machine/Receive.lean ====
section
/-! DEFINITION. The receive unit's events: a received byte (41_frameparser.md R100 to R110), and the opcode table's two rows for a
whole frame received, which are the ten bytes of a well-formed frame delivered in one driving call (20_memory.md R42; log 9). -/

namespace Sys2Proof.Machine

/-- RXFRAME: the ten bytes of the well-formed frame with these fields arrive (R110, R173). The parser takes them from
whatever position it is in; from AwaitStart it emits exactly this frame (40_framecodec.md R96). -/
def execRxframe (c f m l : Byte) (s : State) : Host.Outcome State Fault Refusal :=
  .next (drive cfg (frameBytes (encodeFrame c f m l)) s)

/-- RXERROR: the ten bytes of a well-formed frame with the error-report code arrive (43_query_correlator.md R174, R176). -/
def execRxerror (f m l : Byte) (s : State) : Host.Outcome State Fault Refusal :=
  .next (drive cfg (frameBytes (encodeFrame ERR_CODE f m l)) s)

/-- RXBYTE: one byte of `rx` is delivered (R100 to R110, selected by `pos`). -/
def execRxbyte (b : Byte) (s : State) : Host.Outcome State Fault Refusal := .next (rxByte cfg b s)

end Sys2Proof.Machine
end

