-- ==== Sys2Proof/Machine/System.lean ====
section
/-! DEFINITION. The two events without operands: TICK (43_query_correlator.md R178, R179) and RESET (70_reset_and_hazards.md R240,
R241). -/

namespace Sys2Proof.Machine

/-- TICK. -/
def execTick (s : State) : Host.Outcome State Fault Refusal := .next (tickEvent cfg s)

/-- RESET. -/
def execReset (s : State) : Host.Outcome State Fault Refusal := .next (resetEvent cfg s)

end Sys2Proof.Machine
end

