-- ==== Sys2Proof/Machine/Dispatch.lean ====
section
/-! DEFINITION. One arm per instruction, each one call of its meaning. -/

namespace Sys2Proof.Machine

def exec (i : Instr) (s : State) : Host.Outcome State Fault Refusal :=
  match i with
  | .play n => Sys2Proof.Machine.execPlay n s
  | .pause => Sys2Proof.Machine.execPause s
  | .stop => Sys2Proof.Machine.execStop s
  | .next => Sys2Proof.Machine.execNext s
  | .prev => Sys2Proof.Machine.execPrev s
  | .volup => Sys2Proof.Machine.execVolup s
  | .voldown => Sys2Proof.Machine.execVoldown s
  | .volset v => Sys2Proof.Machine.execVolset v s
  | .eq e => Sys2Proof.Machine.execEq e s
  | .loopmode m => Sys2Proof.Machine.execLoopmode m s
  | .source v => Sys2Proof.Machine.execSource v s
  | .standby => Sys2Proof.Machine.execStandby s
  | .normal => Sys2Proof.Machine.execNormal s
  | .sleep => Sys2Proof.Machine.execSleep s
  | .wake => Sys2Proof.Machine.execWake s
  | .resetdev => Sys2Proof.Machine.execResetdev s
  | .resume => Sys2Proof.Machine.execResume s
  | .folder f t => Sys2Proof.Machine.execFolder f t s
  | .lfolder f t => Sys2Proof.Machine.execLfolder f t s
  | .advert n => Sys2Proof.Machine.execAdvert n s
  | .advstop => Sys2Proof.Machine.execAdvstop s
  | .gain g => Sys2Proof.Machine.execGain g s
  | .repplayStart => Sys2Proof.Machine.execRepplayStart s
  | .repplayStop => Sys2Proof.Machine.execRepplayStop s
  | .repfolderStart f => Sys2Proof.Machine.execRepfolderStart f s
  | .repfolderStop => Sys2Proof.Machine.execRepfolderStop s
  | .repcurStart => Sys2Proof.Machine.execRepcurStart s
  | .repcurStop => Sys2Proof.Machine.execRepcurStop s
  | .randomall => Sys2Proof.Machine.execRandomall s
  | .dacOn => Sys2Proof.Machine.execDacOn s
  | .dacOff => Sys2Proof.Machine.execDacOff s
  | .ask q msb lsb t => Sys2Proof.Machine.execAsk q msb lsb t s
  | .qstatus t => Sys2Proof.Machine.execQstatus t s
  | .qvolume t => Sys2Proof.Machine.execQvolume t s
  | .qeq t => Sys2Proof.Machine.execQeq t s
  | .qmode t => Sys2Proof.Machine.execQmode t s
  | .qversion t => Sys2Proof.Machine.execQversion t s
  | .qcount med t => Sys2Proof.Machine.execQcount med t s
  | .qcurtrack med t => Sys2Proof.Machine.execQcurtrack med t s
  | .qfolders t => Sys2Proof.Machine.execQfolders t s
  | .qfoldertracks f t => Sys2Proof.Machine.execQfoldertracks f t s
  | .rxframe c f m l => Sys2Proof.Machine.execRxframe c f m l s
  | .rxerror f m l => Sys2Proof.Machine.execRxerror f m l s
  | .rxbyte b => Sys2Proof.Machine.execRxbyte b s
  | .tick => Sys2Proof.Machine.execTick s
  | .reset => Sys2Proof.Machine.execReset s

end Sys2Proof.Machine
end

