-- ==== Sys2Proof/Machine/Step.lean ====
section
/-! DEFINITION. One step: the next input event is taken from the queue and its instruction runs (00_scope.md R12; 20_memory.md
R49). With no event there is no step of UFB: it waits, and nothing changes (log 2). -/

namespace Sys2Proof.Machine

/-- One step. -/
def step (s : State) : Host.Outcome State Fault Refusal :=
  match takeEvent s with
  | none => .next s
  | some (i, s') => exec i s'

/-- The instruction a table word stands for, presented as the very next input event. A word that decodes to no instruction
cannot be presented: an operation is a value of the event type (30_encoding.md R63; log 1, log 10). -/
def State.withFetchWord (s : State) (nbits w : Nat) : State :=
  match decodeTableWord nbits w with
  | some i => { s with inq := i :: s.inq }
  | none => s

end Sys2Proof.Machine
end

