-- ==== Sys2Proof/Safety.lean ====
section
/-! DEFINITION. The terms the statements use: runs (70_reset_and_hazards.md R257), the invariant of the state (10_state.md R33) and
of the streams (20_memory.md R44, R48), and the spec's own arithmetic of a frame (40_framecodec.md R92), written out again so that a
statement does not lean on the meaning it speaks of. -/

namespace Sys2Proof.Safety
open Machine

/-- The number of the frame offset a parser state awaits, the coding of 10_state.md R21 (D19). -/
def posOffset : Pos → Nat
  | .awaitStart => 0
  | .awaitVersion => 1
  | .awaitLength => 2
  | .awaitCommand => 3
  | .awaitFeedback => 4
  | .awaitParamMsb => 5
  | .awaitParamLsb => 6
  | .awaitChecksumMsb => 7
  | .awaitChecksumLsb => 8
  | .awaitEnd => 9

/-- Offsets 1 to 6 added as numbers (R92). -/
def sixSum (F : Frame) : Nat :=
  F.ver.toNat + F.len.toNat + F.cmd.toNat + F.fb.toNat + F.pmsb.toNat + F.plsb.toNat

/-- The frame `7E FF 06 c f m l kh kl EF` with `{kh, kl} = 0x10000 - (0x0105 + c + f + m + l)` (R92; R127 writes it so). -/
def specFrame (c f m l : Byte) : Frame :=
  let ck := 0x10000 - (0x0105 + c.toNat + f.toNat + m.toNat + l.toNat)
  ⟨0x7E, 0xFF, 0x06, c, f, m, l, BitVec.ofNat 8 (ck / 256), BitVec.ofNat 8 (ck % 256), 0xEF⟩

/-- The state after a frame with code `c` and parameter bytes `m`, `l` was sent: ten bytes more on `tx`, one `Tx` more put
out, and nothing else changed. -/
def afterSend (c m l : Byte) (s : State) : State :=
  { s with
    tx := s.tx ++ frameBytes (specFrame c cfg.fbDefault m l)
    out := s.out ++ [.tx (specFrame c cfg.fbDefault m l)] }

/-- The state after a query with a `uTW` timeout was accepted (43_query_correlator.md R171): the frame sent, the query
registered. -/
def afterAsk (q m l : Byte) (t : Nat) (s : State) : State :=
  { s with
    tx := s.tx ++ frameBytes (specFrame q cfg.fbDefault m l)
    out := s.out ++ [.tx (specFrame q cfg.fbDefault m l)]
    pend := true
    expc := cfg.expect q
    tstart := s.now
    tmo := t }

/-- The state after output events were put out and nothing else happened. -/
def afterOutput (es : List OutEvent) (s : State) : State := { s with out := s.out ++ es }

/-- Instructions run one after the other (R257): the environment's choice of events, without the queue. -/
def runEvents : List Instr → State → Host.Outcome State Fault Refusal
  | [], s => .next s
  | i :: is, s =>
    match exec i s with
    | .next s' => runEvents is s'
    | .fault r => .fault r
    | .refused r => .refused r

/-- Bytes of `rx` delivered one event each, in order (20_memory.md R41, R42). -/
def deliver (bs : List Byte) (s : State) : Host.Outcome State Fault Refusal := runEvents (bs.map .rxbyte) s

/-- The bytes a `Tx` event stands for. -/
def txBytes : OutEvent → List Byte
  | .tx F => frameBytes F
  | _ => []

/-- Clauses (b) to (e) of 10_state.md R33; clauses (a) and (f) hold by the types of `pos` and `pend`. -/
def ParserInv (s : State) : Prop :=
  (1 ≤ posOffset s.pos → s.rxf.start = 0x7E)
    ∧ (2 ≤ posOffset s.pos → s.rxf.ver = 0xFF)
    ∧ (3 ≤ posOffset s.pos → s.rxf.len = 0x06)
    ∧ (s.pos = .awaitEnd → frameChecksum s.rxf = checksumOf s.rxf)

/-- What an output event may be: frames sent and frames handed to the sink are well-formed, the former with the feedback
byte of the configuration, the latter with their cause exactly where they are error reports (R48, R109, R159, R176). -/
def OutputOk : OutEvent → Prop
  | .tx F => frameWf F = true ∧ F.fb = cfg.fbDefault
  | .sink F cause => frameWf F = true ∧ cause = (if F.cmd = 0x40 then some (describe cfg F.plsb) else none)
  | .qresult (.deviceError code cause) => cause = describe cfg code
  | .qresult _ => True
  | .decodeFail _ => True

/-- The two streams agree: `tx` is the frames sent, whole, in order, with nothing between them (R44), and every output is
one UFB may put out. -/
def StreamInv (s : State) : Prop :=
  s.tx = s.out.flatMap txBytes ∧ ∀ e ∈ s.out, OutputOk e

/-- The registers of a tick count hold `cfg.TW` bits (10_state.md R27, R28, R29). -/
def TickInv (s : State) : Prop := s.now < 2 ^ cfg.tw ∧ s.tstart < 2 ^ cfg.tw ∧ s.tmo < 2 ^ cfg.tw

/-- The invariant of UFB. -/
def Inv (s : State) : Prop := ParserInv s ∧ TickInv s ∧ StreamInv s

/-- A run is quiescent at its end (R257). -/
def quiescent (s : State) : Bool := decide (s.pos = .awaitStart) && !s.pend

/-- How many of the events are ticks. -/
def tickCount : List Instr → Nat
  | [] => 0
  | .tick :: is => tickCount is + 1
  | _ :: is => tickCount is

/-- A result that resolves a query: every `QResult` but `Busy` (43_query_correlator.md R190). -/
def resolving : OutEvent → Bool
  | .qresult .busy => false
  | .qresult _ => true
  | _ => false

/-- A frame was sent. -/
def isTx : OutEvent → Bool
  | .tx _ => true
  | _ => false

/-- The instruction is a control action whose operands pass its validity rule (42_catalog_dispatch.md R124). -/
def issuesFrame (k : Cfg) (i : Instr) : Bool :=
  match issueOf i with
  | some (a, args) => actionValid k a args
  | none => false

/-- Bit `j` of byte `k` of a frame flipped, as bytes (40_framecodec.md R95). -/
def flipBit (F : Frame) (k j : Nat) : List Byte :=
  (frameBytes F).modify k (fun b => b ^^^ ((1 : Byte) <<< j))

end Sys2Proof.Safety
end

