-- ==== Sys2Proof/Certificates/Slice0/Obligations.lean ====
section
/-! DEFINITION. The statements for the provers. Each docstring says what the statement formalises; OBLIGATIONS.json holds the
cited rules and the quotations. -/

open Sys2Proof Sys2Proof.Machine Sys2Proof.Safety

/-- checksumOf is the two's complement of the 16-bit sum of offsets 1 to 6. Formalises: R90. -/
def Obligations.ChecksumIsNegatedSixByteSum : Prop :=
  ∀ F : Frame, (checksumOf F).toNat = (0x10000 - sixSum F) % 0x10000

/-- encode fills the constants, the four arguments and the checksum, high byte at offset 7. Formalises: R91. -/
def Obligations.EncodeBuildsTheSpecFrame : Prop :=
  ∀ c f m l : Byte, encodeFrame c f m l = specFrame c f m l

/-- Checksum symmetry: the checksum recomputed from an encoded frame is the one it carries, so it is well-formed.
Formalises: R93. -/
def Obligations.EncodedFrameCarriesItsChecksum : Prop :=
  ∀ c f m l : Byte,
    checksumOf (encodeFrame c f m l) = frameChecksum (encodeFrame c f m l) ∧ frameWf (encodeFrame c f m l) = true

/-- A frame is well-formed exactly if it is the one frame its four middle bytes determine. Formalises: spec/30_encoding.md
section 1, the well-formedness predicate and the count of well-formed frames (the spec marks the count as its
inference). -/
def Obligations.WellFormedIffSpecFrame : Prop :=
  ∀ F : Frame, frameWf F = true ↔ F = specFrame F.cmd F.fb F.pmsb F.plsb

/-- The captured checksum matches exactly if the sum of offsets 1 to 6 plus the checksum is 0 modulo 2^16. Formalises:
spec/40_framecodec.md, the equivalent validity test (marked there as derived). -/
def Obligations.ChecksumSumTestIsEquivalent : Prop :=
  ∀ F : Frame, frameChecksum F = checksumOf F ↔ (sixSum F + (frameChecksum F).toNat) % 0x10000 = 0

/-- The 16-bit sum never wraps; an encoded frame's checksum lies in 0xFAFF to 0xFEFB. Formalises: spec/40_framecodec.md,
integer arithmetic of the checksum (marked there as derived). -/
def Obligations.ChecksumRangesOfEncodedFrames : Prop :=
  (∀ F : Frame, (frameSum F).toNat = sixSum F ∧ sixSum F ≤ 0x05FA ∧ (checksumOf F = 0 ↔ sixSum F = 0))
    ∧ ∀ c f m l : Byte,
        0xFAFF ≤ (checksumOf (encodeFrame c f m l)).toNat ∧ (checksumOf (encodeFrame c f m l)).toNat ≤ 0xFEFB
          ∧ 0xFA ≤ (encodeFrame c f m l).ckmsb.toNat ∧ (encodeFrame c f m l).ckmsb.toNat ≤ 0xFE

/-- A frame whose bytes 1 to 6 changed their sum while the checksum bytes stayed is ill-formed; a change that keeps the
sum is not seen. Formalises: spec/40_framecodec.md, what the checksum detects (the spec derives it). -/
def Obligations.ChangedSumIsDetected : Prop :=
  ∀ F G : Frame, frameWf F = true → G.ckmsb = F.ckmsb → G.cklsb = F.cklsb →
    (sixSum G ≠ sixSum F → frameWf G = false)
    ∧ (G.start = F.start → G.ver = F.ver → G.len = F.len → G.endm = F.endm → sixSum G = sixSum F → frameWf G = true)

/-- The cause table: 0x05 is TrackOutOfRange, Unknown carries its own code, each named cause has a code. Formalises: R201. -/
def Obligations.CauseTableMeetsItsConstraints : Prop :=
  describe cfg 0x05 = .trackOutOfRange
    ∧ (∀ n m : Byte, describe cfg n = .unknown m → m = n)
    ∧ ∀ c ∈ namedCauses, ∃ n : Byte, describe cfg n = c

/-- Decode and encode agree: every instruction whose operands its encoding admits decodes from its encoding, for every
configuration. Formalises: spec/30_encoding.md sections 1 to 3, spec/42_catalog_dispatch.md sections 1 and 2,
spec/43_query_correlator.md section 4. That an encoded instruction names its row is the model's choice (log 10). -/
def Obligations.DecodeOfEncodeIsTheInstruction : Prop :=
  ∀ (k : Cfg) (i : Instr), i.encodable k = true → decode k (encode k i) = .ok i

/-- Each encoded word has one meaning: what decodes is encodable and encodes back to the same bits. Formalises:
spec/30_encoding.md sections 1 to 4, spec/42_catalog_dispatch.md sections 1 and 2. The form of an encoded instruction
is the model's choice (log 10). -/
def Obligations.EncodeOfDecodeIsTheWord : Prop :=
  ∀ (k : Cfg) (w : Encoded) (i : Instr), decode k w = .ok i → i.encodable k = true ∧ encode k i = w

/-- A few words written out from the spec decode to the instructions they stand for. Formalises: spec/95_test_vectors.md
sections 1 and 2, spec/opcode_table.json rows PLAY, RXFRAME, RXERROR, RXBYTE. Which row a bare word is read as, and
that feedback byte 0x00 names PLAY, is the model's choice (log 10). -/
def Obligations.SpecWordsDecode : Prop :=
  decodeTableWord 80 0x7EFF060D00012CFEC1EF = some (.play 300)
    ∧ decodeTableWord 80 0x7EFF0640000005FEB6EF = some (.rxerror 0 0 5)
    ∧ decodeTableWord 80 0x7EFF0643000014FEA4EF = some (.rxframe 0x43 0 0 0x14)
    ∧ decodeTableWord 80 0x7EFF0643000015FEA4EF = none
    ∧ decodeTableWord 8 0x7E = some (.rxbyte 0x7E)

/-- A step takes the next input event and runs its instruction; with none waiting nothing changes. Formalises:
spec/00_scope.md section 5, events, spec/20_memory.md section 6. The queue, and an idle step, are the model's choice
(log 1, log 2). -/
def Obligations.StepRunsTheNextEvent : Prop :=
  (∀ (i : Instr) (rest : List Instr) (s : State), s.inq = i :: rest → step s = exec i { s with inq := rest })
    ∧ ∀ s : State, s.inq = [] → step s = .next s

/-- A step runs the decoded instruction: a table word that decodes to i, presented next, makes the step exec i.
Formalises: spec/30_encoding.md section 1, spec/opcode_table.json. How a word is presented is the model's choice (log
1, log 10). -/
def Obligations.StepRunsTheDecodedWord : Prop :=
  ∀ (nbits w : Nat) (i : Instr) (s : State), decodeTableWord nbits w = some i → step (s.withFetchWord nbits w) = exec i s

/-- UFB has no fault state: every instruction, and every step, answers a next state in every state. Formalises:
spec/60_exceptions.md section 1, no fault state (marked there as derived). That a step with an empty queue answers the
same state is the model's choice (log 2). -/
def Obligations.EveryEventHasAStep : Prop :=
  (∀ (i : Instr) (s : State), ∃ t : State, exec i s = .next t) ∧ ∀ s : State, ∃ t : State, step s = .next t

/-- The state after reset: AwaitStart, no query pending, the tick counter zero, nothing sent. Formalises: spec/10_state.md
section 11. That the streams are empty is the model's rendering (log 1, log 3). -/
def Obligations.ResetStateIsAsTheSpecSays : Prop :=
  State.reset.pos = .awaitStart ∧ State.reset.pend = false ∧ State.reset.now = 0
    ∧ State.reset.tx = [] ∧ State.reset.out = [] ∧ State.reset.inq = []

/-- RESET completes: pos, pend and now at their reset values, no output, a pending query dropped without a result.
Formalises: spec/70_reset_and_hazards.md section 1 (its second rule is marked there as derived). tx and the waiting
input are the model's rendering of the two streams (log 1, log 3). -/
def Obligations.ResetEventGivesResetValues : Prop :=
  ∀ s : State, ∃ t : State, exec .reset s = .next t
    ∧ t.pos = .awaitStart ∧ t.pend = false ∧ t.now = 0 ∧ t.out = s.out ∧ t.tx = s.tx ∧ t.inq = s.inq

/-- RESET touches neither tx nor the input not yet delivered, and the bytes after it are scanned from AwaitStart.
Formalises: spec/70_reset_and_hazards.md section 1 (marked there as derived). -/
def Obligations.ResetLeavesTheStreams : Prop :=
  ∀ (s : State) (bs : List Byte), (∀ b ∈ bs, b ≠ 0x7E) →
    ∃ t : State, exec .reset s = .next t ∧ t.pos = .awaitStart ∧ t.tx = s.tx ∧ t.inq = s.inq ∧ deliver bs t = .next t

/-- RXBYTE in AwaitStart: 7E is captured and advances, any other byte is discarded without output. Formalises: R100. -/
def Obligations.AwaitStartTakesOnlyTheMarker : Prop :=
  ∀ (b : Byte) (s : State), s.pos = .awaitStart →
    (b = 0x7E → exec (.rxbyte b) s = .next { s with rxf := { s.rxf with start := b }, pos := .awaitVersion })
    ∧ (b ≠ 0x7E → exec (.rxbyte b) s = .next s)

/-- RXBYTE in AwaitVersion: FF is captured and advances, any other byte is a BadVersion failure. Formalises: R101. -/
def Obligations.AwaitVersionChecksTheVersion : Prop :=
  ∀ (b : Byte) (s : State), s.pos = .awaitVersion →
    (b = 0xFF → exec (.rxbyte b) s = .next { s with rxf := { s.rxf with ver := b }, pos := .awaitLength })
    ∧ (b ≠ 0xFF → exec (.rxbyte b) s = .next { s with pos := .awaitStart, out := s.out ++ [.decodeFail .badVersion] })

/-- RXBYTE in AwaitLength: 06 is captured and advances, any other byte is a BadLength failure. Formalises: R102. -/
def Obligations.AwaitLengthChecksTheLength : Prop :=
  ∀ (b : Byte) (s : State), s.pos = .awaitLength →
    (b = 0x06 → exec (.rxbyte b) s = .next { s with rxf := { s.rxf with len := b }, pos := .awaitCommand })
    ∧ (b ≠ 0x06 → exec (.rxbyte b) s = .next { s with pos := .awaitStart, out := s.out ++ [.decodeFail .badLength] })

/-- RXBYTE at offsets 3 to 7: any byte is captured at its offset, and the parser advances. Formalises: R103, R104, R105,
R106, R107. -/
def Obligations.MiddleBytesAreCapturedUnconditionally : Prop :=
  ∀ (b : Byte) (s : State),
    (s.pos = .awaitCommand → exec (.rxbyte b) s = .next { s with rxf := { s.rxf with cmd := b }, pos := .awaitFeedback })
    ∧ (s.pos = .awaitFeedback → exec (.rxbyte b) s = .next { s with rxf := { s.rxf with fb := b }, pos := .awaitParamMsb })
    ∧ (s.pos = .awaitParamMsb → exec (.rxbyte b) s = .next { s with rxf := { s.rxf with pmsb := b }, pos := .awaitParamLsb })
    ∧ (s.pos = .awaitParamLsb →
        exec (.rxbyte b) s = .next { s with rxf := { s.rxf with plsb := b }, pos := .awaitChecksumMsb })
    ∧ (s.pos = .awaitChecksumMsb →
        exec (.rxbyte b) s = .next { s with rxf := { s.rxf with ckmsb := b }, pos := .awaitChecksumLsb })

/-- RXBYTE in AwaitChecksumLSB: the byte is captured, the whole checksum is compared with the sum of RXF[1..6].
Formalises: R108. -/
def Obligations.ChecksumIsJudgedAtTheLowByte : Prop :=
  ∀ (b : Byte) (s : State), s.pos = .awaitChecksumLsb →
    (256 * s.rxf.ckmsb.toNat + b.toNat = (0x10000 - sixSum s.rxf) % 0x10000 →
      exec (.rxbyte b) s = .next { s with rxf := { s.rxf with cklsb := b }, pos := .awaitEnd })
    ∧ (256 * s.rxf.ckmsb.toNat + b.toNat ≠ (0x10000 - sixSum s.rxf) % 0x10000 →
      exec (.rxbyte b) s = .next { s with
        rxf := { s.rxf with cklsb := b }, pos := .awaitStart, out := s.out ++ [.decodeFail .badChecksum] })

/-- RXBYTE in AwaitEnd: a byte other than EF is a BadEnd failure and the frame is dropped whole. Formalises:
spec/41_frameparser.md section 1, AwaitEnd, its failing branch. -/
def Obligations.WrongEndMarkerDropsTheFrame : Prop :=
  ∀ (b : Byte) (s : State), s.pos = .awaitEnd → b ≠ 0xEF →
    exec (.rxbyte b) s = .next { s with pos := .awaitStart, out := s.out ++ [.decodeFail .badEnd] }

/-- The end marker of a frame with code 40 while a query is pending resolves it as DeviceError, whatever code was
expected. Formalises: R174. -/
def Obligations.ErrorFrameResolvesThePendingQuery : Prop :=
  ∀ s : State, s.pos = .awaitEnd → s.pend = true → s.rxf.cmd = 0x40 →
    exec (.rxbyte 0xEF) s = .next { s with
      rxf := { s.rxf with endm := 0xEF }, pos := .awaitStart, pend := false,
      out := s.out ++ [.qresult (.deviceError s.rxf.plsb (describe cfg s.rxf.plsb))] }

/-- The end marker of a frame with the expected code resolves the query with the 16-bit parameter value. Formalises: R175. -/
def Obligations.ReplyResolvesThePendingQuery : Prop :=
  ∀ s : State, s.pos = .awaitEnd → s.pend = true → s.rxf.cmd ≠ 0x40 → s.rxf.cmd = s.expc →
    exec (.rxbyte 0xEF) s = .next { s with
      rxf := { s.rxf with endm := 0xEF }, pos := .awaitStart, pend := false,
      out := s.out ++ [.qresult (.value (BitVec.ofNat 16 (256 * s.rxf.pmsb.toNat + s.rxf.plsb.toNat)))] }

/-- A frame no pending query consumes goes to the sink, an error report with its cause, and the query keeps waiting.
Formalises: R176. -/
def Obligations.OtherFramesPassToTheSink : Prop :=
  ∀ s : State, s.pos = .awaitEnd → (s.pend = false ∨ (s.rxf.cmd ≠ 0x40 ∧ s.rxf.cmd ≠ s.expc)) →
    exec (.rxbyte 0xEF) s = .next { s with
      rxf := { s.rxf with endm := 0xEF }, pos := .awaitStart,
      out := s.out ++ [.sink { s.rxf with endm := 0xEF }
        (if s.rxf.cmd = 0x40 then some (describe cfg s.rxf.plsb) else none)] }

/-- RXFRAME and RXERROR complete in every state, as the ten bytes of the well-formed frame delivered one by one.
Formalises: spec/20_memory.md section 1, a driving call over n bytes, spec/opcode_table.json rows RXFRAME, RXERROR.
The reading of the two rows is the model's (log 9). -/
def Obligations.FrameEventsAreTenBytesDelivered : Prop :=
  ∀ (c f m l : Byte) (s : State),
    (∃ t : State, exec (.rxframe c f m l) s = .next t ∧ deliver (frameBytes (specFrame c f m l)) s = .next t)
    ∧ ∃ t : State, exec (.rxerror f m l) s = .next t ∧ deliver (frameBytes (specFrame 0x40 f m l)) s = .next t

/-- From AwaitStart, the bytes of encode(c, f, m, l) emit exactly that frame and no DecodeFail. Formalises:
spec/40_framecodec.md, field extraction and round trip, spec/41_frameparser.md section 2, resynchronisation. The
reading of RXFRAME is the model's (log 9). -/
def Obligations.ReceivedFrameRoundTrip : Prop :=
  ∀ (c f m l : Byte) (s : State), s.pos = .awaitStart →
    exec (.rxframe c f m l) s = .next { s with
      rxf := specFrame c f m l
      pend := s.pend && !(c == 0x40 || c == s.expc)
      out := s.out ++
        [if s.pend = true ∧ c = 0x40 then .qresult (.deviceError l (describe cfg l))
         else if s.pend = true ∧ c = s.expc then .qresult (.value (BitVec.ofNat 16 (256 * m.toNat + l.toNat)))
         else .sink (specFrame c f m l) (if c = 0x40 then some (describe cfg l) else none)] }

/-- A prefix that leaves the parser in AwaitStart does not disturb the well-formed frame after it; a prefix without 7E is
such. Formalises: spec/41_frameparser.md section 2, resynchronisation (marked there as derived), spec/90_conflicts.md
C1. The reading of RXFRAME is the model's (log 9). -/
def Obligations.ResyncAfterACleanPrefix : Prop :=
  ∀ (P : List Byte) (W : Frame) (s : State), s.pos = .awaitStart → frameWf W = true →
    (∀ s1 : State, deliver P s = .next s1 → s1.pos = .awaitStart →
      deliver (P ++ frameBytes W) s = exec (.rxframe W.cmd W.fb W.pmsb W.plsb) s1
        ∧ ∃ (t : State) (e : OutEvent), deliver (P ++ frameBytes W) s = .next t ∧ t.out = s1.out ++ [e]
            ∧ (∀ kind, e ≠ .decodeFail kind) ∧ t.pos = .awaitStart ∧ t.rxf = W)
    ∧ ((∀ b ∈ P, b ≠ 0x7E) → deliver P s = .next s)

/-- Flipping any single bit in bytes 1 to 6 of a well-formed frame makes the parser reject it and return to AwaitStart.
Formalises: R114. -/
def Obligations.SingleBitFlipIsRejected : Prop :=
  ∀ (W : Frame) (s : State) (k j : Nat), frameWf W = true → s.pos = .awaitStart → 1 ≤ k → k ≤ 6 → j < 8 →
    (∃ t : State,
      deliver ((flipBit W k j).take (if k = 1 then 2 else if k = 2 then 3 else 9)) s = .next t
        ∧ t.pos = .awaitStart
        ∧ t.out = s.out ++ [.decodeFail (if k = 1 then .badVersion else if k = 2 then .badLength else .badChecksum)])
    ∧ ∃ (t : State) (o : List OutEvent), deliver (flipBit W k j) s = .next t ∧ t.out = s.out ++ o
        ∧ (∀ e ∈ o, ∃ kind, e = .decodeFail kind)
        ∧ t.pend = s.pend ∧ t.expc = s.expc ∧ t.tstart = s.tstart ∧ t.tmo = s.tmo

/-- From any state at most ten further bytes bring the parser to AwaitStart. Formalises: spec/41_frameparser.md section 2,
totality and liveness (the bound is marked there as derived). -/
def Obligations.ParserReturnsWithinTenBytes : Prop :=
  ∀ (s : State) (bs : List Byte), bs.length = 10 - posOffset s.pos →
    ∃ (n : Nat) (t : State), 1 ≤ n ∧ n ≤ bs.length ∧ deliver (bs.take n) s = .next t ∧ t.pos = .awaitStart

/-- A frame whose first byte fails in AwaitVersion, AwaitLength, AwaitChecksumLSB or AwaitEnd is lost, if no later byte of
it is 7E. Formalises: spec/70_reset_and_hazards.md section 3, a failure can eat the next frame's start marker,
spec/41_frameparser.md section 2, the failing byte is consumed. -/
def Obligations.FailureEatsTheNextStartMarker : Prop :=
  ∀ (W : Frame) (s : State), frameWf W = true → (∀ b ∈ (frameBytes W).drop 1, b ≠ 0x7E) →
    (s.pos = .awaitVersion →
      deliver (frameBytes W) s = .next { s with pos := .awaitStart, out := s.out ++ [.decodeFail .badVersion] })
    ∧ (s.pos = .awaitLength →
      deliver (frameBytes W) s = .next { s with pos := .awaitStart, out := s.out ++ [.decodeFail .badLength] })
    ∧ (s.pos = .awaitChecksumLsb → 256 * s.rxf.ckmsb.toNat + 0x7E ≠ (0x10000 - sixSum s.rxf) % 0x10000 →
      deliver (frameBytes W) s = .next { s with
        rxf := { s.rxf with cklsb := 0x7E }, pos := .awaitStart, out := s.out ++ [.decodeFail .badChecksum] })
    ∧ (s.pos = .awaitEnd →
      deliver (frameBytes W) s = .next { s with pos := .awaitStart, out := s.out ++ [.decodeFail .badEnd] })

/-- Listening from any byte of a stream of well-formed frames, the parser emits only frames of the stream. Formalises:
spec/95_test_vectors.md V35, spec/70_reset_and_hazards.md section 3, no escaping (marked there as derived). -/
def Obligations.CleanStreamHasNoSpuriousFrame : Prop :=
  ∀ (Ws : List Frame) (n : Nat) (s : State), (∀ W ∈ Ws, frameWf W = true) → s.pos = .awaitStart → s.pend = false →
    ∃ (t : State) (o : List OutEvent), deliver ((Ws.flatMap frameBytes).drop n) s = .next t ∧ t.out = s.out ++ o
      ∧ ∀ e ∈ o, (∃ kind, e = .decodeFail kind) ∨ ∃ F ∈ Ws, ∃ cause, e = .sink F cause

/-- A decode failure reads and writes nothing of the query unit. Formalises: R177. -/
def Obligations.DecodeFailureIsTransparentToTheQuery : Prop :=
  (∀ (b : Byte) (s t : State) (kind : FailKind), exec (.rxbyte b) s = .next t → t.out = s.out ++ [.decodeFail kind] →
      t.pend = s.pend ∧ t.expc = s.expc ∧ t.tstart = s.tstart ∧ t.tmo = s.tmo ∧ t.now = s.now ∧ t.tx = s.tx
        ∧ t.pos = .awaitStart)
    ∧ (∀ (b : Byte) (s s' t : State) (kind : FailKind), s'.pos = s.pos → s'.rxf = s.rxf →
      exec (.rxbyte b) s = .next t → t.out = s.out ++ [.decodeFail kind] →
      ∃ t' : State, exec (.rxbyte b) s' = .next t' ∧ t'.out = s'.out ++ [.decodeFail kind] ∧ t'.pos = t.pos ∧ t'.rxf = t.rxf)
    ∧ ∀ (s t : State), exec .tick s = .next t →
      (∀ kind, t.out ≠ s.out ++ [.decodeFail kind]) ∧ t.pos = s.pos ∧ t.rxf = s.rxf

/-- PAUSE, STOP, NEXT, PREV, VOLUP, VOLDOWN, STANDBY, NORMAL, SLEEP, WAKE send their frame and change no register.
Formalises: R127, R128, R129, R130, R131, R132, R137, R138, R139, R140. -/
def Obligations.TransportAndPowerActionsSendOneFrame : Prop :=
  ∀ s : State,
    exec .pause s = .next (afterSend (cfg.cat .pause) 0x00 (if cfg.sent .pause then 1 else 0) s)
    ∧ exec .stop s = .next (afterSend (cfg.cat .stop) 0x00 (if cfg.sent .stop then 1 else 0) s)
    ∧ exec .next s = .next (afterSend (cfg.cat .next) 0x00 (if cfg.sent .next then 1 else 0) s)
    ∧ exec .prev s = .next (afterSend (cfg.cat .prev) 0x00 (if cfg.sent .prev then 1 else 0) s)
    ∧ exec .volup s = .next (afterSend (cfg.cat .volup) 0x00 (if cfg.sent .volup then 1 else 0) s)
    ∧ exec .voldown s = .next (afterSend (cfg.cat .voldown) 0x00 (if cfg.sent .voldown then 1 else 0) s)
    ∧ exec .standby s = .next (afterSend (cfg.cat .standby) 0x00 (if cfg.sent .standby then 1 else 0) s)
    ∧ exec .normal s = .next (afterSend (cfg.cat .normal) 0x00 (if cfg.sent .normal then 1 else 0) s)
    ∧ exec .sleep s = .next (afterSend (cfg.cat .sleep) 0x00 (if cfg.sent .sleep then 1 else 0) s)
    ∧ exec .wake s = .next (afterSend (cfg.cat .wake) 0x00 (if cfg.sent .wake then 1 else 0) s)

/-- RESETDEV, RESUME, ADVSTOP, the repeat starts and stops, RANDOMALL, DAC_ON, DAC_OFF send their frame and change no
register. Formalises: R141, R142, R146, R148, R149, R151, R152, R153, R154, R155, R156. -/
def Obligations.ModeActionsWithoutOperandSendOneFrame : Prop :=
  ∀ s : State,
    exec .resetdev s = .next (afterSend (cfg.cat .resetdev) 0x00 (if cfg.sent .resetdev then 1 else 0) s)
    ∧ exec .resume s = .next (afterSend (cfg.cat .resume) 0x00 (if cfg.sent .resume then 1 else 0) s)
    ∧ exec .advstop s = .next (afterSend (cfg.cat .advstop) 0x00 (if cfg.sent .advstop then 1 else 0) s)
    ∧ exec .repplayStart s = .next (afterSend (cfg.cat .repplayStart) 0x00 (if cfg.sent .repplayStart then 1 else 0) s)
    ∧ exec .repplayStop s = .next (afterSend (cfg.cat .repplayStop) 0x00 (if cfg.sent .repplayStop then 1 else 0) s)
    ∧ exec .repfolderStop s = .next (afterSend (cfg.cat .repfolderStop) 0x00 (if cfg.sent .repfolderStop then 1 else 0) s)
    ∧ exec .repcurStart s = .next (afterSend (cfg.cat .repcurStart) 0x00 (if cfg.sent .repcurStart then 1 else 0) s)
    ∧ exec .repcurStop s = .next (afterSend (cfg.cat .repcurStop) 0x00 (if cfg.sent .repcurStop then 1 else 0) s)
    ∧ exec .randomall s = .next (afterSend (cfg.cat .randomall) 0x00 (if cfg.sent .randomall then 1 else 0) s)
    ∧ exec .dacOn s = .next (afterSend (cfg.cat .dacOn) 0x00 (if cfg.sent .dacOn then 1 else 0) s)
    ∧ exec .dacOff s = .next (afterSend (cfg.cat .dacOff) 0x00 (if cfg.sent .dacOff then 1 else 0) s)

/-- PLAY n sends code 0D with n's high byte first, whatever n, and changes no register. Formalises: R126. -/
def Obligations.PlaySendsTheTrackNumber : Prop :=
  ∀ (n : Word) (s : State), exec (.play n) s = .next (afterSend 0x0D ((n >>> 8).setWidth 8) (n.setWidth 8) s)

/-- LOOPMODE, ADVERT and REPFOLDER_START send their 16-bit operand, high byte first, with no range check. Formalises:
R135, R145, R150. -/
def Obligations.UncheckedWordActionsSendTheirOperand : Prop :=
  ∀ (v : Word) (s : State),
    exec (.loopmode v) s = .next (afterSend (cfg.cat .loopmode) ((v >>> 8).setWidth 8) (v.setWidth 8) s)
    ∧ exec (.advert v) s = .next (afterSend (cfg.cat .advert) ((v >>> 8).setWidth 8) (v.setWidth 8) s)
    ∧ exec (.repfolderStart v) s = .next (afterSend (cfg.cat .repfolderStart) ((v >>> 8).setWidth 8) (v.setWidth 8) s)

/-- VOLSET sends iff v <= 30, EQ iff e <= 5, GAIN iff g <= 31; else nothing at all happens. Formalises: R133, R134, R147. -/
def Obligations.RangeCheckedActionsSendOrDoNothing : Prop :=
  ∀ (v : Word) (s : State),
    (v.toNat ≤ 30 → exec (.volset v) s = .next (afterSend (cfg.cat .volset) 0x00 (v.setWidth 8) s))
    ∧ (30 < v.toNat → exec (.volset v) s = .next s)
    ∧ (v.toNat ≤ 5 → exec (.eq v) s = .next (afterSend (cfg.cat .eq) 0x00 (v.setWidth 8) s))
    ∧ (5 < v.toNat → exec (.eq v) s = .next s)
    ∧ (v.toNat ≤ 31 → exec (.gain v) s = .next (afterSend (cfg.cat .gain) 0x00 (v.setWidth 8) s))
    ∧ (31 < v.toNat → exec (.gain v) s = .next s)

/-- SOURCE s sends iff s is in cfg.SRC_SET; else nothing at all happens. Formalises: R136. -/
def Obligations.SourceSendsMembersOfTheSet : Prop :=
  ∀ (v : Word) (s : State),
    exec (.source v) s = .next (if v ∈ cfg.srcSet then afterSend (cfg.cat .source) ((v >>> 8).setWidth 8) (v.setWidth 8) s else s)

/-- FOLDER f, t sends f in the high and t in the low parameter byte. Formalises: R143. -/
def Obligations.FolderSendsTwoByteFields : Prop :=
  ∀ (f t : Byte) (s : State), exec (.folder f t) s = .next (afterSend (cfg.cat .folder) f t s)

/-- LFOLDER f, t sends w = 4096 * (f mod 16) + (t mod 4096), high byte first, always. Formalises: R144. -/
def Obligations.LargeFolderPacksFourAndTwelveBits : Prop :=
  ∀ (f : Byte) (t : Word) (s : State),
    exec (.lfolder f t) s = .next (afterSend (cfg.cat .lfolder)
      (BitVec.ofNat 8 (((f.toNat % 16) * 4096 + t.toNat % 4096) / 256))
      (BitVec.ofNat 8 (((f.toNat % 16) * 4096 + t.toNat % 4096) % 256)) s)

/-- ASK with no query pending sends its frame and registers the query in one step. Formalises: R171. -/
def Obligations.AcceptedAskSendsAndRegisters : Prop :=
  ∀ (q msb lsb : Byte) (t : Nat) (s : State), t < 2 ^ cfg.tw → s.pend = false →
    exec (.ask q msb lsb t) s = .next (afterAsk q msb lsb t s)

/-- Each of the seven query wrappers without a medium is one ASK with its code from cfg.QCAT; accepted when no query is
pending, Busy when one is. Formalises: R181, R182, R183, R184, R185, R188, R189. -/
def Obligations.WrappersSendTheirQuery : Prop :=
  ∀ (t : Nat) (f : Word) (s : State), t < 2 ^ cfg.tw →
    (s.pend = false →
      exec (.qstatus t) s = .next (afterAsk (cfg.qcat .status) 0 0 t s)
      ∧ exec (.qvolume t) s = .next (afterAsk (cfg.qcat .volume) 0 0 t s)
      ∧ exec (.qeq t) s = .next (afterAsk (cfg.qcat .eq) 0 0 t s)
      ∧ exec (.qmode t) s = .next (afterAsk (cfg.qcat .mode) 0 0 t s)
      ∧ exec (.qversion t) s = .next (afterAsk (cfg.qcat .version) 0 0 t s)
      ∧ exec (.qfolders t) s = .next (afterAsk (cfg.qcat .folders) 0 0 t s)
      ∧ exec (.qfoldertracks f t) s = .next (afterAsk (cfg.qcat .folderTracks) ((f >>> 8).setWidth 8) (f.setWidth 8) t s))
    ∧ (s.pend = true →
      exec (.qstatus t) s = .next (afterOutput [.qresult .busy] s)
      ∧ exec (.qvolume t) s = .next (afterOutput [.qresult .busy] s)
      ∧ exec (.qeq t) s = .next (afterOutput [.qresult .busy] s)
      ∧ exec (.qmode t) s = .next (afterOutput [.qresult .busy] s)
      ∧ exec (.qversion t) s = .next (afterOutput [.qresult .busy] s)
      ∧ exec (.qfolders t) s = .next (afterOutput [.qresult .busy] s)
      ∧ exec (.qfoldertracks f t) s = .next (afterOutput [.qresult .busy] s))

/-- QCOUNT and QCURTRACK are one ASK with the code cfg.QCAT gives the medium; accepted when no query is pending, Busy when
one is. Formalises: spec/43_query_correlator.md section 4, the two wrappers that take a medium. A medium outside
cfg.MEDIA is no operand of the spec and runs alike by the model's choice (log 11). -/
def Obligations.MediumWrappersSendTheirQuery : Prop :=
  ∀ (t : Nat) (med : Medium) (s : State), t < 2 ^ cfg.tw →
    (s.pend = false →
      exec (.qcount med t) s = .next (afterAsk (cfg.qcat (.count med)) 0 0 t s)
      ∧ exec (.qcurtrack med t) s = .next (afterAsk (cfg.qcat (.curTrack med)) 0 0 t s))
    ∧ (s.pend = true →
      exec (.qcount med t) s = .next (afterOutput [.qresult .busy] s)
      ∧ exec (.qcurtrack med t) s = .next (afterOutput [.qresult .busy] s))

/-- ASK while a query is pending gives Busy, sends nothing and leaves the pending query as it is. Formalises: R170. -/
def Obligations.SecondAskIsBusy : Prop :=
  ∀ (q msb lsb : Byte) (t : Nat) (s : State), t < 2 ^ cfg.tw → s.pend = true →
    exec (.ask q msb lsb t) s = .next (afterOutput [.qresult .busy] s)

/-- TICK adds one to now modulo 2^TW and raises Timeout iff a query is pending and its elapsed ticks reach tmo.
Formalises: R178, R179. -/
def Obligations.TickCountsAndTimesOut : Prop :=
  ∀ s : State,
    (s.pend = true ∧ (s.tmo : Int) ≤ ((s.now : Int) + 1 - s.tstart) % 2 ^ cfg.tw →
      exec .tick s =
        .next { s with now := (s.now + 1) % 2 ^ cfg.tw, pend := false, out := s.out ++ [.qresult .timeout] })
    ∧ (¬(s.pend = true ∧ (s.tmo : Int) ≤ ((s.now : Int) + 1 - s.tstart) % 2 ^ cfg.tw) →
      exec .tick s = .next { s with now := (s.now + 1) % 2 ^ cfg.tw })

/-- An accepted query times out at exactly the max(tmo, 1)-th tick, whatever else happens short of a resolution or a
Reset. Formalises: spec/43_query_correlator.md section 5, clause (d), and section 3 (the law is marked there as
derived). -/
def Obligations.TimeoutAfterExactlyTmoTicks : Prop :=
  ∀ (i : Instr) (q m l : Byte) (tmo : Nat) (s s1 t : State) (es : List Instr) (o : List OutEvent),
    askOf cfg i = some (q, m, l, tmo) → tmo < 2 ^ cfg.tw → s.pend = false → exec i s = .next s1 →
    .reset ∉ es → runEvents es s1 = .next t → t.out = s1.out ++ o →
    (∀ v, .qresult (.value v) ∉ o) → (∀ code cause, .qresult (.deviceError code cause) ∉ o) →
    tickCount es < max tmo 1 →
      t.pend = true ∧ t.expc = cfg.expect q ∧ t.tstart = s.now ∧ t.tmo = tmo ∧ .qresult .timeout ∉ o
        ∧ (tickCount es + 1 = max tmo 1 →
            ∃ u : State, exec .tick t = .next u ∧ u.out = t.out ++ [.qresult .timeout] ∧ u.pend = false ∧ u.tx = t.tx)

/-- A pending query stays as it is through any run without RESET that resolves nothing, and the run sends no query frame.
Formalises: spec/43_query_correlator.md section 5, clauses (a) and (b) (marked there as derived), spec/20_memory.md
section 8. -/
def Obligations.PendingQueryStaysUntilResolved : Prop :=
  ∀ (es : List Instr) (s t : State) (o : List OutEvent), s.pend = true → .reset ∉ es → runEvents es s = .next t →
    t.out = s.out ++ o → (∀ e ∈ o, resolving e = false) →
    t.pend = true ∧ t.expc = s.expc ∧ t.tstart = s.tstart ∧ t.tmo = s.tmo
      ∧ (o.countP (fun e => decide (e = .qresult .busy)) = es.countP (fun i => (askOf cfg i).isSome))
      ∧ o.countP isTx = es.countP (issuesFrame cfg)

/-- After a Value, a DeviceError or a Timeout no query is pending, and an ASK in the very next step is accepted.
Formalises: R226. -/
def Obligations.ResolutionClearsTheQuery : Prop :=
  ∀ (i : Instr) (s t : State) (r : Res), exec i s = .next t → t.out = s.out ++ [.qresult r] → r ≠ .busy →
    s.pend = true ∧ t.pend = false
      ∧ ∀ (q msb lsb : Byte) (tm : Nat), tm < 2 ^ cfg.tw → exec (.ask q msb lsb tm) t = .next (afterAsk q msb lsb tm t)

/-- Every step keeps the invariant: captured bytes fit the position, tick registers fit TW bits, outputs are well-formed,
tx is the frames sent. Formalises: spec/10_state.md section 9 (marked there as derived), spec/20_memory.md sections 1
and 5, spec/42_catalog_dispatch.md section 3. -/
def Obligations.EveryStepKeepsTheInvariant : Prop :=
  ∀ s t : State, Inv s → step s = .next t → Inv t

/-- The reset state meets the invariant. Formalises: spec/10_state.md sections 9 and 11. -/
def Obligations.ResetStateMeetsTheInvariant : Prop :=
  Inv State.reset

/-- A frame is appended to tx exactly by a valid control action or an accepted query, whole and well-formed; nothing else
writes tx. Formalises: spec/20_memory.md section 1, what appends a frame (marked there as derived),
spec/42_catalog_dispatch.md section 3. -/
def Obligations.TxGrowsOnlyByIssueOrAcceptedAsk : Prop :=
  ∀ (i : Instr) (s t : State), exec i s = .next t →
    (issuesFrame cfg i = true ∨ ((askOf cfg i).isSome = true ∧ s.pend = false) →
      ∃ F : Frame, frameWf F = true ∧ F.fb = cfg.fbDefault ∧ t.tx = s.tx ++ frameBytes F ∧ t.out = s.out ++ [.tx F])
    ∧ (¬(issuesFrame cfg i = true ∨ ((askOf cfg i).isSome = true ∧ s.pend = false)) → t.tx = s.tx)

/-- A control action neither reads nor writes any register, is accepted while a query is pending, and never gives Busy.
Formalises: R125. -/
def Obligations.ControlActionsAreFireAndForget : Prop :=
  ∀ (i : Instr) (s s' : State), (issueOf i).isSome = true →
    ∃ (bs : List Byte) (o : List OutEvent), (∀ r, .qresult r ∉ o)
      ∧ exec i s = .next { s with tx := s.tx ++ bs, out := s.out ++ o }
      ∧ exec i s' = .next { s' with tx := s'.tx ++ bs, out := s'.out ++ o }

/-- What a host operation sends does not depend on the receive unit, and receiving sends nothing. Formalises:
spec/20_memory.md section 10 (marked there as derived). -/
def Obligations.DirectionsAreIndependent : Prop :=
  (∀ (i : Instr) (s s' t t' : State), (issueOf i).isSome = true ∨ (askOf cfg i).isSome = true → s.pend = s'.pend →
      exec i s = .next t → exec i s' = .next t' →
      (∃ bs, t.tx = s.tx ++ bs ∧ t'.tx = s'.tx ++ bs) ∧ t.pos = s.pos ∧ t.rxf = s.rxf)
    ∧ ∀ (c f m l b : Byte) (s t : State),
      exec (.rxframe c f m l) s = .next t ∨ exec (.rxerror f m l) s = .next t ∨ exec (.rxbyte b) s = .next t → t.tx = s.tx

/-- now changes by TICK alone, the query record by an accepted query alone, pos and RXF by received bytes alone (RESET
apart). Formalises: spec/10_state.md sections 2 to 5. -/
def Obligations.WhoWritesWhichRegister : Prop :=
  ∀ (i : Instr) (s t : State), exec i s = .next t → i ≠ .reset →
    (t.now = if i = .tick then (s.now + 1) % 2 ^ cfg.tw else s.now)
      ∧ (¬((askOf cfg i).isSome = true ∧ s.pend = false) → t.expc = s.expc ∧ t.tstart = s.tstart ∧ t.tmo = s.tmo)
      ∧ ((∀ b, i ≠ .rxbyte b) → (∀ c f m l, i ≠ .rxframe c f m l) → (∀ f m l, i ≠ .rxerror f m l) →
          t.pos = s.pos ∧ t.rxf = s.rxf)
      ∧ t.inq = s.inq ∧ t.freeCount = s.freeCount

/-- pend is set by an accepted query alone, and cleared only with a resolving QResult or by RESET. Formalises:
spec/10_state.md section 4. -/
def Obligations.PendIsSetOnlyByAQuery : Prop :=
  ∀ (i : Instr) (s t : State), exec i s = .next t →
    (s.pend = false → t.pend = true → (askOf cfg i).isSome = true)
      ∧ (s.pend = true → t.pend = false → i = .reset ∨ ∃ o, t.out = s.out ++ o ∧ ∃ e ∈ o, resolving e = true)

/-- One input event puts out at most one output event, and earlier outputs and earlier tx bytes stay. Formalises:
spec/60_exceptions.md section 3 (marked there as derived). -/
def Obligations.OneEventRaisesAtMostOneOutput : Prop :=
  ∀ (i : Instr) (s t : State), exec i s = .next t → (∀ c f m l, i ≠ .rxframe c f m l) → (∀ f m l, i ≠ .rxerror f m l) →
    (∃ o : List OutEvent, t.out = s.out ++ o ∧ o.length ≤ 1) ∧ ∃ bs : List Byte, t.tx = s.tx ++ bs

/-- Inputs of one cycle are taken as byte, tick, operation: a reply at the deadline is a Value, and an ASK where a query
resolves is accepted. Formalises: spec/60_exceptions.md section 3, inputs of one cycle. sameCycle is the model's
rendering of the order (log 14). -/
def Obligations.SameCycleInputsByteFirst : Prop :=
  (∀ (b : Byte) (i : Instr),
      sameCycle (some b) true (some i) = [.rxbyte b, .tick, i] ∧ sameCycle (some b) true none = [.rxbyte b, .tick]
        ∧ sameCycle (some b) false (some i) = [.rxbyte b, i] ∧ sameCycle none true (some i) = [.tick, i])
    ∧ ∀ (s : State) (ticked : Bool) (q msb lsb : Byte) (tm : Nat), tm < 2 ^ cfg.tw →
      (s.pos = .awaitEnd → s.pend = true → (s.rxf.cmd = 0x40 ∨ s.rxf.cmd = s.expc) →
        ∃ u : State, runEvents (sameCycle (some 0xEF) ticked (some (.ask q msb lsb tm))) s = .next u
          ∧ u.out = s.out ++
              [.qresult (if s.rxf.cmd = 0x40 then .deviceError s.rxf.plsb (describe cfg s.rxf.plsb)
                else .value (BitVec.ofNat 16 (256 * s.rxf.pmsb.toNat + s.rxf.plsb.toNat))),
                .tx (specFrame q cfg.fbDefault msb lsb)]
          ∧ u.pend = true ∧ u.expc = cfg.expect q ∧ u.tmo = tm
          ∧ u.tstart = if ticked then (s.now + 1) % 2 ^ cfg.tw else s.now)
      ∧ ∀ (byte : Option Byte) (s1 : State), runEvents (sameCycle byte false none) s = .next s1 →
        s1.pend = true → (s1.tmo : Int) ≤ ((s1.now : Int) + 1 - s1.tstart) % 2 ^ cfg.tw →
        ∃ u : State, runEvents (sameCycle byte true (some (.ask q msb lsb tm))) s = .next u
          ∧ u.out = s1.out ++ [.qresult .timeout, .tx (specFrame q cfg.fbDefault msb lsb)]
          ∧ u.pend = true ∧ u.expc = cfg.expect q ∧ u.tmo = tm ∧ u.tstart = (s.now + 1) % 2 ^ cfg.tw
end

