-- ==== Sys2Proof/Laws/Codec.lean ====
section
/-! SUPPORT. Bytes and words (00_scope.md R10): the split of a word and the join of two bytes as numbers and as inverses of each
other; what well-formedness and the codec say of the fields of a frame. -/

namespace Sys2Proof.Machine

theorem hiByte_toNat (v : Word) : (hiByte v).toNat = v.toNat / 256 := by
  have h := v.isLt
  simp [hiByte, BitVec.extractLsb'_toNat, Nat.shiftRight_eq_div_pow]
  omega

theorem loByte_toNat (v : Word) : (loByte v).toNat = v.toNat % 256 := by
  simp [loByte, BitVec.extractLsb'_toNat]

theorem joinBytes_toNat (hi lo : Byte) : (joinBytes hi lo).toNat = 256 * hi.toNat + lo.toNat := by
  have h := lo.isLt
  simp only [joinBytes, BitVec.toNat_append]
  rw [← Nat.shiftLeft_add_eq_or_of_lt h, Nat.shiftLeft_eq]
  omega

@[simp] theorem hiByte_joinBytes (hi lo : Byte) : hiByte (joinBytes hi lo) = hi := by
  apply BitVec.eq_of_toNat_eq
  have h := lo.isLt
  rw [hiByte_toNat, joinBytes_toNat]
  omega

@[simp] theorem loByte_joinBytes (hi lo : Byte) : loByte (joinBytes hi lo) = lo := by
  apply BitVec.eq_of_toNat_eq
  have h := lo.isLt
  rw [loByte_toNat, joinBytes_toNat]
  omega

@[simp] theorem joinBytes_hi_lo (v : Word) : joinBytes (hiByte v) (loByte v) = v := by
  apply BitVec.eq_of_toNat_eq
  rw [joinBytes_toNat, hiByte_toNat, loByte_toNat]
  omega

/-- The two bytes of a word, as the statements write them. -/
theorem hiByte_eq_shift (v : Word) : hiByte v = (v >>> 8).setWidth 8 := by
  apply BitVec.eq_of_toNat_eq
  rw [hiByte_toNat]
  have h := v.isLt
  simp [Nat.shiftRight_eq_div_pow]
  omega

theorem loByte_eq_setWidth (v : Word) : loByte v = v.setWidth 8 := by
  apply BitVec.eq_of_toNat_eq
  rw [loByte_toNat]
  simp

/-- Well-formedness, field by field (30_encoding.md R61). -/
theorem frameWf_iff (F : Frame) :
    frameWf F = true ↔
      F.start = START ∧ F.ver = VERSION ∧ F.len = LENGTH ∧ F.endm = ENDMARK ∧ frameChecksum F = checksumOf F := by
  simp [frameWf, and_assoc]

/-- The checksum reads offsets 1 to 6 only (40_framecodec.md R90). -/
theorem checksumOf_congr {F G : Frame} (h1 : F.ver = G.ver) (h2 : F.len = G.len) (h3 : F.cmd = G.cmd) (h4 : F.fb = G.fb)
    (h5 : F.pmsb = G.pmsb) (h6 : F.plsb = G.plsb) : checksumOf F = checksumOf G := by
  simp [checksumOf, frameSum, h1, h2, h3, h4, h5, h6]

@[simp] theorem encodeFrame_start (c f m l : Byte) : (encodeFrame c f m l).start = START := rfl
@[simp] theorem encodeFrame_ver (c f m l : Byte) : (encodeFrame c f m l).ver = VERSION := rfl
@[simp] theorem encodeFrame_len (c f m l : Byte) : (encodeFrame c f m l).len = LENGTH := rfl
@[simp] theorem encodeFrame_cmd (c f m l : Byte) : (encodeFrame c f m l).cmd = c := rfl
@[simp] theorem encodeFrame_fb (c f m l : Byte) : (encodeFrame c f m l).fb = f := rfl
@[simp] theorem encodeFrame_pmsb (c f m l : Byte) : (encodeFrame c f m l).pmsb = m := rfl
@[simp] theorem encodeFrame_plsb (c f m l : Byte) : (encodeFrame c f m l).plsb = l := rfl
@[simp] theorem encodeFrame_endm (c f m l : Byte) : (encodeFrame c f m l).endm = ENDMARK := rfl

/-- A frame is its ten bytes (20_memory.md R46). -/
@[simp] theorem frameOfBytes_frameBytes (F : Frame) : frameOfBytes (frameBytes F) = some F := rfl

theorem frameBytes_of_frameOfBytes {bs : List Byte} {F : Frame} (h : frameOfBytes bs = some F) : bs = frameBytes F := by
  unfold frameOfBytes at h
  split at h
  · cases h; rfl
  · cases h

@[simp] theorem frameBytes_length (F : Frame) : (frameBytes F).length = FRAME_BYTES := rfl

/-- PACK_LF as a number: four bits of folder, twelve of track (30_encoding.md R67). -/
theorem packLf_toNat (f : Byte) (t : Word) : (packLf f t).toNat = (f.toNat % 16) * 4096 + t.toNat % 4096 := by
  have hf := f.isLt
  have ht := t.isLt
  have h1 : (t &&& 0x0FFF).toNat = t.toNat % 4096 := by
    rw [BitVec.toNat_and]
    exact Nat.and_two_pow_sub_one_eq_mod t.toNat 12
  have h2 : (f.setWidth 16 <<< 12).toNat = (f.toNat % 16) <<< 12 := by
    simp [Nat.shiftLeft_eq]
    omega
  have h3 : t.toNat % 4096 < 2 ^ 12 := Nat.mod_lt _ (by norm_num)
  rw [packLf, BitVec.toNat_or, h1, h2, ← Nat.shiftLeft_add_eq_or_of_lt h3, Nat.shiftLeft_eq]

/-- The operands an instruction issues are of the class its catalog entry has (30_encoding.md R69). -/
theorem issueOf_class {i : Instr} {a : Action} {args : Args} (h : issueOf i = some (a, args)) :
    argsClass args = actionClass a := by
  cases i <;> simp [issueOf] at h <;> obtain ⟨rfl, rfl⟩ := h <;> rfl

/-- The informative cause table is a legal one (44_error_translator.md R201, R202). -/
theorem errtabInstance_legal : errtabLegal errtabInstance = true := by decide +kernel

end Sys2Proof.Machine
end

