-- ==== Sys2Proof/Laws/State.lean ====
section
/-! SUPPORT. One lemma per field of State per shared update: what the update leaves in the field. -/

namespace Sys2Proof.Machine

@[simp] theorem output_pos (e : OutEvent) (s : State) : (output e s).pos = s.pos := rfl
@[simp] theorem output_rxf (e : OutEvent) (s : State) : (output e s).rxf = s.rxf := rfl
@[simp] theorem output_pend (e : OutEvent) (s : State) : (output e s).pend = s.pend := rfl
@[simp] theorem output_expc (e : OutEvent) (s : State) : (output e s).expc = s.expc := rfl
@[simp] theorem output_tstart (e : OutEvent) (s : State) : (output e s).tstart = s.tstart := rfl
@[simp] theorem output_tmo (e : OutEvent) (s : State) : (output e s).tmo = s.tmo := rfl
@[simp] theorem output_now (e : OutEvent) (s : State) : (output e s).now = s.now := rfl
@[simp] theorem output_tx (e : OutEvent) (s : State) : (output e s).tx = s.tx := rfl
@[simp] theorem output_out (e : OutEvent) (s : State) : (output e s).out = s.out ++ [e] := rfl
@[simp] theorem output_inq (e : OutEvent) (s : State) : (output e s).inq = s.inq := rfl
@[simp] theorem output_freeCount (e : OutEvent) (s : State) : (output e s).freeCount = s.freeCount := rfl

@[simp] theorem sendFrame_pos (F : Frame) (s : State) : (sendFrame F s).pos = s.pos := rfl
@[simp] theorem sendFrame_rxf (F : Frame) (s : State) : (sendFrame F s).rxf = s.rxf := rfl
@[simp] theorem sendFrame_pend (F : Frame) (s : State) : (sendFrame F s).pend = s.pend := rfl
@[simp] theorem sendFrame_expc (F : Frame) (s : State) : (sendFrame F s).expc = s.expc := rfl
@[simp] theorem sendFrame_tstart (F : Frame) (s : State) : (sendFrame F s).tstart = s.tstart := rfl
@[simp] theorem sendFrame_tmo (F : Frame) (s : State) : (sendFrame F s).tmo = s.tmo := rfl
@[simp] theorem sendFrame_now (F : Frame) (s : State) : (sendFrame F s).now = s.now := rfl
@[simp] theorem sendFrame_tx (F : Frame) (s : State) : (sendFrame F s).tx = s.tx ++ frameBytes F := rfl
@[simp] theorem sendFrame_out (F : Frame) (s : State) : (sendFrame F s).out = s.out ++ [.tx F] := rfl
@[simp] theorem sendFrame_inq (F : Frame) (s : State) : (sendFrame F s).inq = s.inq := rfl
@[simp] theorem sendFrame_freeCount (F : Frame) (s : State) : (sendFrame F s).freeCount = s.freeCount := rfl

@[simp] theorem decodeFail_pos (kind : FailKind) (s : State) : (decodeFail kind s).pos = .awaitStart := rfl
@[simp] theorem decodeFail_rxf (kind : FailKind) (s : State) : (decodeFail kind s).rxf = s.rxf := rfl
@[simp] theorem decodeFail_pend (kind : FailKind) (s : State) : (decodeFail kind s).pend = s.pend := rfl
@[simp] theorem decodeFail_expc (kind : FailKind) (s : State) : (decodeFail kind s).expc = s.expc := rfl
@[simp] theorem decodeFail_tstart (kind : FailKind) (s : State) : (decodeFail kind s).tstart = s.tstart := rfl
@[simp] theorem decodeFail_tmo (kind : FailKind) (s : State) : (decodeFail kind s).tmo = s.tmo := rfl
@[simp] theorem decodeFail_now (kind : FailKind) (s : State) : (decodeFail kind s).now = s.now := rfl
@[simp] theorem decodeFail_tx (kind : FailKind) (s : State) : (decodeFail kind s).tx = s.tx := rfl
@[simp] theorem decodeFail_out (kind : FailKind) (s : State) : (decodeFail kind s).out = s.out ++ [.decodeFail kind] := rfl
@[simp] theorem decodeFail_inq (kind : FailKind) (s : State) : (decodeFail kind s).inq = s.inq := rfl
@[simp] theorem decodeFail_freeCount (kind : FailKind) (s : State) : (decodeFail kind s).freeCount = s.freeCount := rfl

@[simp] theorem resolve_pos (r : Res) (s : State) : (resolve r s).pos = s.pos := rfl
@[simp] theorem resolve_rxf (r : Res) (s : State) : (resolve r s).rxf = s.rxf := rfl
@[simp] theorem resolve_pend (r : Res) (s : State) : (resolve r s).pend = false := rfl
@[simp] theorem resolve_expc (r : Res) (s : State) : (resolve r s).expc = s.expc := rfl
@[simp] theorem resolve_tstart (r : Res) (s : State) : (resolve r s).tstart = s.tstart := rfl
@[simp] theorem resolve_tmo (r : Res) (s : State) : (resolve r s).tmo = s.tmo := rfl
@[simp] theorem resolve_now (r : Res) (s : State) : (resolve r s).now = s.now := rfl
@[simp] theorem resolve_tx (r : Res) (s : State) : (resolve r s).tx = s.tx := rfl
@[simp] theorem resolve_out (r : Res) (s : State) : (resolve r s).out = s.out ++ [.qresult r] := rfl
@[simp] theorem resolve_inq (r : Res) (s : State) : (resolve r s).inq = s.inq := rfl
@[simp] theorem resolve_freeCount (r : Res) (s : State) : (resolve r s).freeCount = s.freeCount := rfl

@[simp] theorem resetEvent_pos (k : Cfg) (s : State) : (resetEvent k s).pos = .awaitStart := rfl
@[simp] theorem resetEvent_rxf (k : Cfg) (s : State) : (resetEvent k s).rxf = freeFrame s.freeCount := rfl
@[simp] theorem resetEvent_pend (k : Cfg) (s : State) : (resetEvent k s).pend = false := rfl
@[simp] theorem resetEvent_expc (k : Cfg) (s : State) : (resetEvent k s).expc = Config.freeByte (s.freeCount + 10) := rfl
@[simp] theorem resetEvent_tstart (k : Cfg) (s : State) : (resetEvent k s).tstart = truncTicks k (Config.freeTicks s.freeCount) := rfl
@[simp] theorem resetEvent_tmo (k : Cfg) (s : State) : (resetEvent k s).tmo = truncTicks k (Config.freeTicks (s.freeCount + 1)) := rfl
@[simp] theorem resetEvent_now (k : Cfg) (s : State) : (resetEvent k s).now = 0 := rfl
@[simp] theorem resetEvent_tx (k : Cfg) (s : State) : (resetEvent k s).tx = s.tx := rfl
@[simp] theorem resetEvent_out (k : Cfg) (s : State) : (resetEvent k s).out = s.out := rfl
@[simp] theorem resetEvent_inq (k : Cfg) (s : State) : (resetEvent k s).inq = s.inq := rfl
@[simp] theorem resetEvent_freeCount (k : Cfg) (s : State) : (resetEvent k s).freeCount = s.freeCount + 11 := rfl

@[simp] theorem present_pos (es : List Instr) (s : State) : (present es s).pos = s.pos := rfl
@[simp] theorem present_rxf (es : List Instr) (s : State) : (present es s).rxf = s.rxf := rfl
@[simp] theorem present_pend (es : List Instr) (s : State) : (present es s).pend = s.pend := rfl
@[simp] theorem present_expc (es : List Instr) (s : State) : (present es s).expc = s.expc := rfl
@[simp] theorem present_tstart (es : List Instr) (s : State) : (present es s).tstart = s.tstart := rfl
@[simp] theorem present_tmo (es : List Instr) (s : State) : (present es s).tmo = s.tmo := rfl
@[simp] theorem present_now (es : List Instr) (s : State) : (present es s).now = s.now := rfl
@[simp] theorem present_tx (es : List Instr) (s : State) : (present es s).tx = s.tx := rfl
@[simp] theorem present_out (es : List Instr) (s : State) : (present es s).out = s.out := rfl
@[simp] theorem present_inq (es : List Instr) (s : State) : (present es s).inq = s.inq ++ es := rfl
@[simp] theorem present_freeCount (es : List Instr) (s : State) : (present es s).freeCount = s.freeCount := rfl

end Sys2Proof.Machine
end

