-- ==== Sys2Proof/Laws/Ops.lean ====
section
/-! SUPPORT. For each shared operation, one lemma that says all it can do; later proofs cite these and unfold no operation. -/

namespace Sys2Proof.Machine

/-- A truncated count fits its register (10_state.md R27 to R29). -/
theorem truncTicks_lt (k : Cfg) (n : Nat) : truncTicks k n < 2 ^ k.tw := Nat.mod_lt _ (Nat.two_pow_pos _)

/-- A `uTW` value is kept whole. -/
theorem truncTicks_of_lt {k : Cfg} {n : Nat} (h : n < 2 ^ k.tw) : truncTicks k n = n := Nat.mod_eq_of_lt h

/-- The elapsed ticks are the difference modulo `2 ^ cfg.TW` (43_query_correlator.md R178). -/
theorem elapsedTicks_eq (k : Cfg) (now tstart : Nat) :
    ((elapsedTicks k now tstart : Nat) : Int) = ((now : Int) - tstart) % 2 ^ k.tw := by
  have hle : truncTicks k tstart ≤ 2 ^ k.tw := (truncTicks_lt k tstart).le
  have hsub : ((2 ^ k.tw - truncTicks k tstart : Nat) : Int) = 2 ^ k.tw - (tstart : Int) % 2 ^ k.tw := by
    rw [Nat.cast_sub hle]
    simp [truncTicks]
  have hdiv := Int.emod_add_mul_ediv (tstart : Int) (2 ^ k.tw)
  rw [elapsedTicks, truncTicks, Int.natCast_emod, Int.natCast_add, hsub, Nat.cast_pow, Nat.cast_ofNat,
    Int.emod_eq_emod_iff_emod_sub_eq_zero]
  exact Int.emod_eq_zero_of_dvd ⟨1 + (tstart : Int) / 2 ^ k.tw, by linarith⟩

/-- `Issue` (42_catalog_dispatch.md R122, R124): one frame is sent, or nothing happens. -/
theorem issue_eq (k : Cfg) (a : Action) (args : Args) (s : State) :
    issue k a args s =
      if actionValid k a args = true then
        sendFrame (encodeFrame (actionCode k a) k.fbDefault (params k a args).1 (params k a args).2) s
      else s := rfl

/-- `Ask` (43_query_correlator.md R170, R171). -/
theorem ask_of_pending (k : Cfg) (q m l : Byte) (t : Nat) {s : State} (h : s.pend = true) :
    ask k q m l t s = output (.qresult .busy) s := by
  simp [ask, h]

theorem ask_of_idle (k : Cfg) (q m l : Byte) (t : Nat) {s : State} (h : s.pend = false) :
    ask k q m l t s =
      { sendFrame (encodeFrame q k.fbDefault m l) s with
        pend := true, expc := k.expect q, tstart := s.now, tmo := truncTicks k t } := by
  simp [ask, h]

/-- Routing (43_query_correlator.md R173): exactly one of the three branches, with its condition. -/
theorem route_cases (k : Cfg) (F : Frame) (s : State) :
    (s.pend = true ∧ F.cmd = ERR_CODE ∧ route k F s = resolve (.deviceError F.plsb (describe k F.plsb)) s)
      ∨ (s.pend = true ∧ F.cmd ≠ ERR_CODE ∧ F.cmd = s.expc ∧ route k F s = resolve (.value (frameValue F)) s)
      ∨ ((s.pend = false ∨ (F.cmd ≠ ERR_CODE ∧ F.cmd ≠ s.expc)) ∧ route k F s = output (.sink F (sinkCause k F)) s) := by
  unfold route isDeviceError isReply
  cases hp : s.pend
  · simp
  · by_cases h1 : F.cmd = ERR_CODE
    · simp [h1]
    · by_cases h2 : F.cmd = s.expc
      · simp_all
      · simp [h1, h2]

/-- Routing puts out one event and writes no register but `pend`. -/
theorem route_frame (k : Cfg) (F : Frame) (s : State) :
    (route k F s).pos = s.pos ∧ (route k F s).rxf = s.rxf ∧ (route k F s).expc = s.expc ∧ (route k F s).tstart = s.tstart
      ∧ (route k F s).tmo = s.tmo ∧ (route k F s).now = s.now ∧ (route k F s).tx = s.tx ∧ (route k F s).inq = s.inq
      ∧ (route k F s).freeCount = s.freeCount := by
  obtain ⟨-, -, h⟩ | ⟨-, -, -, h⟩ | ⟨-, h⟩ := route_cases k F s <;> simp [h]

/-- `RxByte` (41_frameparser.md R116): one line of the transition table applies. -/
theorem rxByte_cases (k : Cfg) (b : Byte) (s : State) :
    (s.pos = .awaitStart ∧ b = START ∧ rxByte k b s = { s with rxf := { s.rxf with start := b }, pos := .awaitVersion })
      ∨ (s.pos = .awaitStart ∧ b ≠ START ∧ rxByte k b s = s)
      ∨ (s.pos = .awaitVersion ∧ b = VERSION
          ∧ rxByte k b s = { s with rxf := { s.rxf with ver := b }, pos := .awaitLength })
      ∨ (s.pos = .awaitVersion ∧ b ≠ VERSION ∧ rxByte k b s = decodeFail .badVersion s)
      ∨ (s.pos = .awaitLength ∧ b = LENGTH
          ∧ rxByte k b s = { s with rxf := { s.rxf with len := b }, pos := .awaitCommand })
      ∨ (s.pos = .awaitLength ∧ b ≠ LENGTH ∧ rxByte k b s = decodeFail .badLength s)
      ∨ (s.pos = .awaitCommand ∧ rxByte k b s = { s with rxf := { s.rxf with cmd := b }, pos := .awaitFeedback })
      ∨ (s.pos = .awaitFeedback ∧ rxByte k b s = { s with rxf := { s.rxf with fb := b }, pos := .awaitParamMsb })
      ∨ (s.pos = .awaitParamMsb ∧ rxByte k b s = { s with rxf := { s.rxf with pmsb := b }, pos := .awaitParamLsb })
      ∨ (s.pos = .awaitParamLsb ∧ rxByte k b s = { s with rxf := { s.rxf with plsb := b }, pos := .awaitChecksumMsb })
      ∨ (s.pos = .awaitChecksumMsb
          ∧ rxByte k b s = { s with rxf := { s.rxf with ckmsb := b }, pos := .awaitChecksumLsb })
      ∨ (s.pos = .awaitChecksumLsb ∧ joinBytes s.rxf.ckmsb b = checksumOf s.rxf
          ∧ rxByte k b s = { s with rxf := { s.rxf with cklsb := b }, pos := .awaitEnd })
      ∨ (s.pos = .awaitChecksumLsb ∧ joinBytes s.rxf.ckmsb b ≠ checksumOf s.rxf
          ∧ rxByte k b s = decodeFail .badChecksum { s with rxf := { s.rxf with cklsb := b } })
      ∨ (s.pos = .awaitEnd ∧ b = ENDMARK
          ∧ rxByte k b s
              = route k { s.rxf with endm := b } { s with rxf := { s.rxf with endm := b }, pos := .awaitStart })
      ∨ (s.pos = .awaitEnd ∧ b ≠ ENDMARK ∧ rxByte k b s = decodeFail .badEnd s) := by
  have hck : checksumOf { s.rxf with cklsb := b } = checksumOf s.rxf := rfl
  cases hp : s.pos
  case awaitChecksumLsb =>
    by_cases h : joinBytes s.rxf.ckmsb b = checksumOf s.rxf
    all_goals simp [rxByte, hp, rxAwaitChecksumLsb, frameChecksum, hck, h]
  case awaitStart => by_cases h : b = START <;> simp [rxByte, hp, rxAwaitStart, h]
  case awaitVersion => by_cases h : b = VERSION <;> simp [rxByte, hp, rxAwaitVersion, h]
  case awaitLength => by_cases h : b = LENGTH <;> simp [rxByte, hp, rxAwaitLength, h]
  case awaitEnd => by_cases h : b = ENDMARK <;> simp [rxByte, hp, rxAwaitEnd, h]
  all_goals
    simp [rxByte, hp, rxAwaitCommand, rxAwaitFeedback, rxAwaitParamMsb, rxAwaitParamLsb, rxAwaitChecksumMsb]

/-- Received bytes touch neither `tx`, the query record, the counter nor the queue (20_memory.md R54). -/
theorem rxByte_frame (k : Cfg) (b : Byte) (s : State) :
    (rxByte k b s).expc = s.expc ∧ (rxByte k b s).tstart = s.tstart ∧ (rxByte k b s).tmo = s.tmo
      ∧ (rxByte k b s).now = s.now ∧ (rxByte k b s).tx = s.tx ∧ (rxByte k b s).inq = s.inq
      ∧ (rxByte k b s).freeCount = s.freeCount := by
  rcases rxByte_cases k b s with h | h | h | h | h | h | h | h | h | h | h | h | h | h | h
  case inr.inr.inr.inr.inr.inr.inr.inr.inr.inr.inr.inr.inr.inl =>
    rw [h.2.2]
    exact (route_frame k _ _).2.2
  all_goals first | (rw [h.2.2]; simp) | (rw [h.2]; simp)

/-- A driving call over a concatenation is two driving calls (20_memory.md R42). -/
theorem drive_append (k : Cfg) (as bs : List Byte) (s : State) : drive k (as ++ bs) s = drive k bs (drive k as s) := by
  induction as generalizing s with
  | nil => rfl
  | cons a as ih => exact ih (rxByte k a s)

theorem drive_frame (k : Cfg) (bs : List Byte) (s : State) :
    (drive k bs s).expc = s.expc ∧ (drive k bs s).tstart = s.tstart ∧ (drive k bs s).tmo = s.tmo
      ∧ (drive k bs s).now = s.now ∧ (drive k bs s).tx = s.tx ∧ (drive k bs s).inq = s.inq
      ∧ (drive k bs s).freeCount = s.freeCount := by
  induction bs generalizing s with
  | nil => simp [drive]
  | cons b bs ih =>
    have h1 := ih (rxByte k b s)
    have h2 := rxByte_frame k b s
    simp only [drive]
    simp only [h2] at h1
    exact h1

/-- `Tick` (43_query_correlator.md R178, R179): the deadline is met, or only the counter moves. -/
theorem tickEvent_cases (k : Cfg) (s : State) :
    (s.pend = true ∧ s.tmo ≤ elapsedTicks k (truncTicks k (s.now + 1)) s.tstart
        ∧ tickEvent k s = resolve .timeout { s with now := truncTicks k (s.now + 1) })
      ∨ (¬(s.pend = true ∧ s.tmo ≤ elapsedTicks k (truncTicks k (s.now + 1)) s.tstart)
        ∧ tickEvent k s = { s with now := truncTicks k (s.now + 1) }) := by
  unfold tickEvent deadlineReached
  by_cases h : s.pend = true ∧ s.tmo ≤ elapsedTicks k (truncTicks k (s.now + 1)) s.tstart
  · exact .inl ⟨h.1, h.2, if_pos (Bool.and_eq_true_iff.mpr ⟨h.1, decide_eq_true h.2⟩)⟩
  · refine .inr ⟨h, if_neg fun hb => h ?_⟩
    exact ⟨(Bool.and_eq_true_iff.mp hb).1, of_decide_eq_true (Bool.and_eq_true_iff.mp hb).2⟩

/-- Taking an event (20_memory.md R41): the head of the queue, once. -/
theorem takeEvent_eq_some {s s' : State} {i : Instr} (h : takeEvent s = some (i, s')) :
    ∃ rest, s.inq = i :: rest ∧ s' = { s with inq := rest } := by
  unfold takeEvent at h
  split at h
  · cases h
  · rename_i j rest hq
    simp only [Option.some.injEq, Prod.mk.injEq] at h
    obtain ⟨rfl, rfl⟩ := h
    exact ⟨rest, hq, rfl⟩

theorem takeEvent_eq_none {s : State} (h : takeEvent s = none) : s.inq = [] := by
  unfold takeEvent at h
  split at h
  · assumption
  · cases h

/-- What an instruction runs: an `Issue`, an `Ask`, a driving call, a tick or a reset. -/
theorem exec_cases (i : Instr) (s : State) :
    (∃ a args, issueOf i = some (a, args) ∧ exec i s = .next (issue cfg a args s))
      ∨ (∃ q m l t, askOf cfg i = some (q, m, l, t) ∧ exec i s = .next (ask cfg q m l t s))
      ∨ (∃ c f m l, i = .rxframe c f m l ∧ exec i s = .next (drive cfg (frameBytes (encodeFrame c f m l)) s))
      ∨ (∃ f m l, i = .rxerror f m l ∧ exec i s = .next (drive cfg (frameBytes (encodeFrame ERR_CODE f m l)) s))
      ∨ (∃ b, i = .rxbyte b ∧ exec i s = .next (rxByte cfg b s))
      ∨ (i = .tick ∧ exec i s = .next (tickEvent cfg s))
      ∨ (i = .reset ∧ exec i s = .next (resetEvent cfg s)) := by
  cases i <;>
    first
      | exact .inl ⟨_, _, rfl, rfl⟩
      | exact .inr (.inl ⟨_, _, _, _, rfl, rfl⟩)
      | exact .inr (.inr (.inl ⟨_, _, _, _, rfl, rfl⟩))
      | exact .inr (.inr (.inr (.inl ⟨_, _, _, rfl, rfl⟩)))
      | exact .inr (.inr (.inr (.inr (.inl ⟨_, rfl, rfl⟩))))
      | exact .inr (.inr (.inr (.inr (.inr (.inl ⟨rfl, rfl⟩)))))
      | exact .inr (.inr (.inr (.inr (.inr (.inr ⟨rfl, rfl⟩)))))

/-- An instruction is of one kind only: an action is no query. -/
theorem askOf_eq_none_of_issueOf {i : Instr} {a : Action} {args : Args} (k : Cfg) (h : issueOf i = some (a, args)) :
    askOf k i = none := by
  cases i <;> simp_all [issueOf, askOf]

end Sys2Proof.Machine
end

