-- ==== Sys2Proof/Laws/PerInstr.lean ====
section
/-! SUPPORT. The per-instruction family of LAWS.json: the encoding of every instruction has the form its row of
spec/opcode_table.json gives it, under every configuration. -/

namespace Sys2Proof.Laws.EncodingFitsTable
open Machine

/-- Rows 0 to 42 hold a frame that carries its checksum and the constants (30_encoding.md R60, R61), row 43 one byte, rows 44 and
45 nothing (R63); only the two queries of a medium carry one. -/
def Statement (i : Instr) : Prop :=
  ∀ k : Cfg,
    (encode k i).row < 46
      ∧ ((encode k i).row < 43 → ∃ c f m l : Byte, (encode k i).bits = frameBytes (encodeFrame c f m l))
      ∧ ((encode k i).row = 43 → ∃ b : Byte, (encode k i).bits = [b])
      ∧ (43 < (encode k i).row → (encode k i).bits = [])
      ∧ ((encode k i).row ≠ 37 → (encode k i).row ≠ 38 → (encode k i).med = 0)

/-- An instruction whose row holds a frame. -/
theorem of_frame {i : Instr} (h : ∀ k : Cfg, ∃ c f m l : Byte, wireFrame k i = some (encodeFrame c f m l))
    (hr : rowOf i < 43) (hm : rowOf i ≠ 37 → rowOf i ≠ 38 → encodedMed i = 0) : Statement i := by
  intro k
  obtain ⟨c, f, m, l, hw⟩ := h k
  have hrow : (encode k i).row = rowOf i := rfl
  refine ⟨by omega, fun _ => ⟨c, f, m, l, ?_⟩, fun h43 => by omega, fun h43 => by omega, hm⟩
  show encodedBits k i = _
  unfold encodedBits
  rw [hw]

theorem play (n : Word) : Statement (.play n) :=
  of_frame (fun _ => ⟨_, _, _, _, rfl⟩) (by simp [rowOf]) (fun _ _ => rfl)
theorem pause : Statement .pause :=
  of_frame (fun _ => ⟨_, _, _, _, rfl⟩) (by simp [rowOf]) (fun _ _ => rfl)
theorem stop : Statement .stop :=
  of_frame (fun _ => ⟨_, _, _, _, rfl⟩) (by simp [rowOf]) (fun _ _ => rfl)
theorem next : Statement .next :=
  of_frame (fun _ => ⟨_, _, _, _, rfl⟩) (by simp [rowOf]) (fun _ _ => rfl)
theorem prev : Statement .prev :=
  of_frame (fun _ => ⟨_, _, _, _, rfl⟩) (by simp [rowOf]) (fun _ _ => rfl)
theorem volup : Statement .volup :=
  of_frame (fun _ => ⟨_, _, _, _, rfl⟩) (by simp [rowOf]) (fun _ _ => rfl)
theorem voldown : Statement .voldown :=
  of_frame (fun _ => ⟨_, _, _, _, rfl⟩) (by simp [rowOf]) (fun _ _ => rfl)
theorem volset (v : Word) : Statement (.volset v) :=
  of_frame (fun _ => ⟨_, _, _, _, rfl⟩) (by simp [rowOf]) (fun _ _ => rfl)
theorem eq (e : Word) : Statement (.eq e) :=
  of_frame (fun _ => ⟨_, _, _, _, rfl⟩) (by simp [rowOf]) (fun _ _ => rfl)
theorem loopmode (m : Word) : Statement (.loopmode m) :=
  of_frame (fun _ => ⟨_, _, _, _, rfl⟩) (by simp [rowOf]) (fun _ _ => rfl)
theorem source (v : Word) : Statement (.source v) :=
  of_frame (fun _ => ⟨_, _, _, _, rfl⟩) (by simp [rowOf]) (fun _ _ => rfl)
theorem standby : Statement .standby :=
  of_frame (fun _ => ⟨_, _, _, _, rfl⟩) (by simp [rowOf]) (fun _ _ => rfl)
theorem normal : Statement .normal :=
  of_frame (fun _ => ⟨_, _, _, _, rfl⟩) (by simp [rowOf]) (fun _ _ => rfl)
theorem sleep : Statement .sleep :=
  of_frame (fun _ => ⟨_, _, _, _, rfl⟩) (by simp [rowOf]) (fun _ _ => rfl)
theorem wake : Statement .wake :=
  of_frame (fun _ => ⟨_, _, _, _, rfl⟩) (by simp [rowOf]) (fun _ _ => rfl)
theorem resetdev : Statement .resetdev :=
  of_frame (fun _ => ⟨_, _, _, _, rfl⟩) (by simp [rowOf]) (fun _ _ => rfl)
theorem resume : Statement .resume :=
  of_frame (fun _ => ⟨_, _, _, _, rfl⟩) (by simp [rowOf]) (fun _ _ => rfl)
theorem folder (f t : Byte) : Statement (.folder f t) :=
  of_frame (fun _ => ⟨_, _, _, _, rfl⟩) (by simp [rowOf]) (fun _ _ => rfl)
theorem lfolder (f : Byte) (t : Word) : Statement (.lfolder f t) :=
  of_frame (fun _ => ⟨_, _, _, _, rfl⟩) (by simp [rowOf]) (fun _ _ => rfl)
theorem advert (n : Word) : Statement (.advert n) :=
  of_frame (fun _ => ⟨_, _, _, _, rfl⟩) (by simp [rowOf]) (fun _ _ => rfl)
theorem advstop : Statement .advstop :=
  of_frame (fun _ => ⟨_, _, _, _, rfl⟩) (by simp [rowOf]) (fun _ _ => rfl)
theorem gain (g : Word) : Statement (.gain g) :=
  of_frame (fun _ => ⟨_, _, _, _, rfl⟩) (by simp [rowOf]) (fun _ _ => rfl)
theorem repplayStart : Statement .repplayStart :=
  of_frame (fun _ => ⟨_, _, _, _, rfl⟩) (by simp [rowOf]) (fun _ _ => rfl)
theorem repplayStop : Statement .repplayStop :=
  of_frame (fun _ => ⟨_, _, _, _, rfl⟩) (by simp [rowOf]) (fun _ _ => rfl)
theorem repfolderStart (f : Word) : Statement (.repfolderStart f) :=
  of_frame (fun _ => ⟨_, _, _, _, rfl⟩) (by simp [rowOf]) (fun _ _ => rfl)
theorem repfolderStop : Statement .repfolderStop :=
  of_frame (fun _ => ⟨_, _, _, _, rfl⟩) (by simp [rowOf]) (fun _ _ => rfl)
theorem repcurStart : Statement .repcurStart :=
  of_frame (fun _ => ⟨_, _, _, _, rfl⟩) (by simp [rowOf]) (fun _ _ => rfl)
theorem repcurStop : Statement .repcurStop :=
  of_frame (fun _ => ⟨_, _, _, _, rfl⟩) (by simp [rowOf]) (fun _ _ => rfl)
theorem randomall : Statement .randomall :=
  of_frame (fun _ => ⟨_, _, _, _, rfl⟩) (by simp [rowOf]) (fun _ _ => rfl)
theorem dacOn : Statement .dacOn :=
  of_frame (fun _ => ⟨_, _, _, _, rfl⟩) (by simp [rowOf]) (fun _ _ => rfl)
theorem dacOff : Statement .dacOff :=
  of_frame (fun _ => ⟨_, _, _, _, rfl⟩) (by simp [rowOf]) (fun _ _ => rfl)
theorem ask (q msb lsb : Byte) (t : Nat) : Statement (.ask q msb lsb t) :=
  of_frame (fun _ => ⟨_, _, _, _, rfl⟩) (by simp [rowOf]) (fun _ _ => rfl)
theorem qstatus (t : Nat) : Statement (.qstatus t) :=
  of_frame (fun _ => ⟨_, _, _, _, rfl⟩) (by simp [rowOf]) (fun _ _ => rfl)
theorem qvolume (t : Nat) : Statement (.qvolume t) :=
  of_frame (fun _ => ⟨_, _, _, _, rfl⟩) (by simp [rowOf]) (fun _ _ => rfl)
theorem qeq (t : Nat) : Statement (.qeq t) :=
  of_frame (fun _ => ⟨_, _, _, _, rfl⟩) (by simp [rowOf]) (fun _ _ => rfl)
theorem qmode (t : Nat) : Statement (.qmode t) :=
  of_frame (fun _ => ⟨_, _, _, _, rfl⟩) (by simp [rowOf]) (fun _ _ => rfl)
theorem qversion (t : Nat) : Statement (.qversion t) :=
  of_frame (fun _ => ⟨_, _, _, _, rfl⟩) (by simp [rowOf]) (fun _ _ => rfl)
theorem qcount (med : Medium) (t : Nat) : Statement (.qcount med t) :=
  of_frame (fun _ => ⟨_, _, _, _, rfl⟩) (by simp [rowOf]) (fun h1 h2 => by simp [rowOf] at h1 h2)
theorem qcurtrack (med : Medium) (t : Nat) : Statement (.qcurtrack med t) :=
  of_frame (fun _ => ⟨_, _, _, _, rfl⟩) (by simp [rowOf]) (fun h1 h2 => by simp [rowOf] at h1 h2)
theorem qfolders (t : Nat) : Statement (.qfolders t) :=
  of_frame (fun _ => ⟨_, _, _, _, rfl⟩) (by simp [rowOf]) (fun _ _ => rfl)
theorem qfoldertracks (f : Word) (t : Nat) : Statement (.qfoldertracks f t) :=
  of_frame (fun _ => ⟨_, _, _, _, rfl⟩) (by simp [rowOf]) (fun _ _ => rfl)
theorem rxframe (c f m l : Byte) : Statement (.rxframe c f m l) :=
  of_frame (fun _ => ⟨_, _, _, _, rfl⟩) (by simp [rowOf]) (fun _ _ => rfl)
theorem rxerror (f m l : Byte) : Statement (.rxerror f m l) :=
  of_frame (fun _ => ⟨_, _, _, _, rfl⟩) (by simp [rowOf]) (fun _ _ => rfl)
theorem rxbyte (b : Byte) : Statement (.rxbyte b) :=
  fun _ => ⟨by simp [encode, rowOf], fun h => by simp [encode, rowOf] at h, fun _ => ⟨b, rfl⟩, fun h => by simp [encode, rowOf] at h, fun _ _ => rfl⟩
theorem tick : Statement .tick :=
  fun _ => ⟨by simp [encode, rowOf], fun h => by simp [encode, rowOf] at h, fun h => by simp [encode, rowOf] at h, fun _ => rfl, fun _ _ => rfl⟩
theorem reset : Statement .reset :=
  fun _ => ⟨by simp [encode, rowOf], fun h => by simp [encode, rowOf] at h, fun h => by simp [encode, rowOf] at h, fun _ => rfl, fun _ _ => rfl⟩

end Sys2Proof.Laws.EncodingFitsTable
end

