-- ==== Sys2Proof/Tests/Slice0.lean ====
section
/-! SUPPORT. Small checks of the model, each a named theorem: the refusals of WellFormed and of the decoder; one word for every
constructor, its bytes written out from the encoding column and the checksum added by hand; single steps with the results of
95_test_vectors.md; and for every statement with hypotheses a state and operands that meet them. -/

namespace Sys2Proof.Tests
open Machine Safety

/-- The test configuration TCFG of 95_test_vectors.md section 0. The codes that TCFG leaves out are arbitrary here. -/
def tcfg : Cfg where
  cat
    | .pause => 0x0E
    | .stop => 0x16
    | .next => 0x01
    | .prev => 0x02
    | .volup => 0x04
    | .voldown => 0x05
    | .volset => 0x06
    | .eq => 0x07
    | .loopmode => 0x08
    | .source => 0x09
    | .standby => 0x0A
    | .normal => 0x0B
    | .sleep => 0x1A
    | .wake => 0x1B
    | .resetdev => 0x0C
    | .resume => 0x1C
    | .folder => 0x0F
    | .lfolder => 0x14
    | .advert => 0x13
    | .advstop => 0x15
    | .gain => 0x10
    | .repplayStart => 0x11
    | .repplayStop => 0x11
    | .repfolderStart => 0x17
    | .repfolderStop => 0x1D
    | .repcurStart => 0x19
    | .repcurStop => 0x19
    | .randomall => 0x18
    | .dacOn => 0x1E
    | .dacOff => 0x1E
    | .play => 0x00
  qcat
    | .status => 0x42
    | .volume => 0x43
    | .eq => 0x44
    | .mode => 0x45
    | .version => 0x46
    | .count med => 0x47 + med
    | .curTrack med => 0x4B + med
    | .folders => 0x4F
    | .folderTracks => 0x4E
  sent
    | .repplayStart | .repcurStop | .dacOff => true
    | _ => false
  srcSet := [1, 2]
  media := [1, 2]
  expect := fun q => q
  fbDefault := 0x00
  errtab := errtabInstance
  tw := 32
  tickPeriod := 1

-- WellFormed: its two checks, the medium and the width of a timeout.
theorem test_wf_qcount_medium : Instr.wellFormed tcfg (.qcount 1 100) = true ∧ Instr.wellFormed tcfg (.qcount 0 100) = false := by
  decide
theorem test_wf_qcurtrack_medium :
    Instr.wellFormed tcfg (.qcurtrack 2 100) = true ∧ Instr.wellFormed tcfg (.qcurtrack 3 100) = false := by decide
theorem test_wf_timeout_width :
    Instr.wellFormed tcfg (.ask 0x43 0 0 0xFFFFFFFF) = true ∧ Instr.wellFormed tcfg (.ask 0x43 0 0 0x100000000) = false
      ∧ Instr.wellFormed tcfg (.qcount 1 0x100000000) = false ∧ Instr.wellFormed tcfg (.qfoldertracks 1 0x100000000) = false := by
  decide

-- One word for every row: bytes from its encoding, the checksum 0x10000 - (0x0105 + the four middle bytes).
theorem test_decode_play :
    decode tcfg { row := 0, bits := [0x7E, 0xFF, 0x06, 0x0D, 0x00, 0x01, 0x2C, 0xFE, 0xC1, 0xEF] } = .ok (.play 300) := by decide
theorem test_decode_pause :
    decode tcfg { row := 1, bits := [0x7E, 0xFF, 0x06, 0x0E, 0x00, 0x00, 0x00, 0xFE, 0xED, 0xEF] } = .ok .pause := by decide
theorem test_decode_stop :
    decode tcfg { row := 2, bits := [0x7E, 0xFF, 0x06, 0x16, 0x00, 0x00, 0x00, 0xFE, 0xE5, 0xEF] } = .ok .stop := by decide
theorem test_decode_next :
    decode tcfg { row := 3, bits := [0x7E, 0xFF, 0x06, 0x01, 0x00, 0x00, 0x00, 0xFE, 0xFA, 0xEF] } = .ok .next := by decide
theorem test_decode_prev :
    decode tcfg { row := 4, bits := [0x7E, 0xFF, 0x06, 0x02, 0x00, 0x00, 0x00, 0xFE, 0xF9, 0xEF] } = .ok .prev := by decide
theorem test_decode_volup :
    decode tcfg { row := 5, bits := [0x7E, 0xFF, 0x06, 0x04, 0x00, 0x00, 0x00, 0xFE, 0xF7, 0xEF] } = .ok .volup := by decide
theorem test_decode_voldown :
    decode tcfg { row := 6, bits := [0x7E, 0xFF, 0x06, 0x05, 0x00, 0x00, 0x00, 0xFE, 0xF6, 0xEF] } = .ok .voldown := by decide
theorem test_decode_volset :
    decode tcfg { row := 7, bits := [0x7E, 0xFF, 0x06, 0x06, 0x00, 0x00, 0x1E, 0xFE, 0xD7, 0xEF] } = .ok (.volset 30) := by decide
theorem test_decode_eq :
    decode tcfg { row := 8, bits := [0x7E, 0xFF, 0x06, 0x07, 0x00, 0x00, 0x05, 0xFE, 0xEF, 0xEF] } = .ok (.eq 5) := by decide
theorem test_decode_loopmode :
    decode tcfg { row := 9, bits := [0x7E, 0xFF, 0x06, 0x08, 0x00, 0x00, 0x02, 0xFE, 0xF1, 0xEF] } = .ok (.loopmode 2) := by decide
theorem test_decode_source :
    decode tcfg { row := 10, bits := [0x7E, 0xFF, 0x06, 0x09, 0x00, 0x00, 0x02, 0xFE, 0xF0, 0xEF] } = .ok (.source 2) := by decide
theorem test_decode_standby :
    decode tcfg { row := 11, bits := [0x7E, 0xFF, 0x06, 0x0A, 0x00, 0x00, 0x00, 0xFE, 0xF1, 0xEF] } = .ok .standby := by decide
theorem test_decode_normal :
    decode tcfg { row := 12, bits := [0x7E, 0xFF, 0x06, 0x0B, 0x00, 0x00, 0x00, 0xFE, 0xF0, 0xEF] } = .ok .normal := by decide
theorem test_decode_sleep :
    decode tcfg { row := 13, bits := [0x7E, 0xFF, 0x06, 0x1A, 0x00, 0x00, 0x00, 0xFE, 0xE1, 0xEF] } = .ok .sleep := by decide
theorem test_decode_wake :
    decode tcfg { row := 14, bits := [0x7E, 0xFF, 0x06, 0x1B, 0x00, 0x00, 0x00, 0xFE, 0xE0, 0xEF] } = .ok .wake := by decide
theorem test_decode_resetdev :
    decode tcfg { row := 15, bits := [0x7E, 0xFF, 0x06, 0x0C, 0x00, 0x00, 0x00, 0xFE, 0xEF, 0xEF] } = .ok .resetdev := by decide
theorem test_decode_resume :
    decode tcfg { row := 16, bits := [0x7E, 0xFF, 0x06, 0x1C, 0x00, 0x00, 0x00, 0xFE, 0xDF, 0xEF] } = .ok .resume := by decide
theorem test_decode_folder :
    decode tcfg { row := 17, bits := [0x7E, 0xFF, 0x06, 0x0F, 0x00, 0x02, 0x07, 0xFE, 0xE3, 0xEF] } = .ok (.folder 2 7) := by decide
theorem test_decode_lfolder :
    decode tcfg { row := 18, bits := [0x7E, 0xFF, 0x06, 0x14, 0x00, 0x21, 0x2C, 0xFE, 0x9A, 0xEF] } = .ok (.lfolder 2 300) := by decide
theorem test_decode_advert :
    decode tcfg { row := 19, bits := [0x7E, 0xFF, 0x06, 0x13, 0x00, 0x00, 0x03, 0xFE, 0xE5, 0xEF] } = .ok (.advert 3) := by decide
theorem test_decode_advstop :
    decode tcfg { row := 20, bits := [0x7E, 0xFF, 0x06, 0x15, 0x00, 0x00, 0x00, 0xFE, 0xE6, 0xEF] } = .ok .advstop := by decide
theorem test_decode_gain :
    decode tcfg { row := 21, bits := [0x7E, 0xFF, 0x06, 0x10, 0x00, 0x00, 0x1F, 0xFE, 0xCC, 0xEF] } = .ok (.gain 31) := by decide
theorem test_decode_repplayStart :
    decode tcfg { row := 22, bits := [0x7E, 0xFF, 0x06, 0x11, 0x00, 0x00, 0x01, 0xFE, 0xE9, 0xEF] } = .ok .repplayStart := by decide
theorem test_decode_repplayStop :
    decode tcfg { row := 23, bits := [0x7E, 0xFF, 0x06, 0x11, 0x00, 0x00, 0x00, 0xFE, 0xEA, 0xEF] } = .ok .repplayStop := by decide
theorem test_decode_repfolderStart :
    decode tcfg { row := 24, bits := [0x7E, 0xFF, 0x06, 0x17, 0x00, 0x00, 0x04, 0xFE, 0xE0, 0xEF] } = .ok (.repfolderStart 4) := by decide
theorem test_decode_repfolderStop :
    decode tcfg { row := 25, bits := [0x7E, 0xFF, 0x06, 0x1D, 0x00, 0x00, 0x00, 0xFE, 0xDE, 0xEF] } = .ok .repfolderStop := by decide
theorem test_decode_repcurStart :
    decode tcfg { row := 26, bits := [0x7E, 0xFF, 0x06, 0x19, 0x00, 0x00, 0x00, 0xFE, 0xE2, 0xEF] } = .ok .repcurStart := by decide
theorem test_decode_repcurStop :
    decode tcfg { row := 27, bits := [0x7E, 0xFF, 0x06, 0x19, 0x00, 0x00, 0x01, 0xFE, 0xE1, 0xEF] } = .ok .repcurStop := by decide
theorem test_decode_randomall :
    decode tcfg { row := 28, bits := [0x7E, 0xFF, 0x06, 0x18, 0x00, 0x00, 0x00, 0xFE, 0xE3, 0xEF] } = .ok .randomall := by decide
theorem test_decode_dacOn :
    decode tcfg { row := 29, bits := [0x7E, 0xFF, 0x06, 0x1E, 0x00, 0x00, 0x00, 0xFE, 0xDD, 0xEF] } = .ok .dacOn := by decide
theorem test_decode_dacOff :
    decode tcfg { row := 30, bits := [0x7E, 0xFF, 0x06, 0x1E, 0x00, 0x00, 0x01, 0xFE, 0xDC, 0xEF] } = .ok .dacOff := by decide
theorem test_decode_ask :
    decode tcfg { row := 31, bits := [0x7E, 0xFF, 0x06, 0x4E, 0x00, 0x00, 0x0C, 0xFE, 0xA1, 0xEF], tmo := 50 } = .ok (.ask 0x4E 0 12 50) := by decide
theorem test_decode_qstatus :
    decode tcfg { row := 32, bits := [0x7E, 0xFF, 0x06, 0x42, 0x00, 0x00, 0x00, 0xFE, 0xB9, 0xEF], tmo := 100 } = .ok (.qstatus 100) := by decide
theorem test_decode_qvolume :
    decode tcfg { row := 33, bits := [0x7E, 0xFF, 0x06, 0x43, 0x00, 0x00, 0x00, 0xFE, 0xB8, 0xEF], tmo := 100 } = .ok (.qvolume 100) := by decide
theorem test_decode_qeq :
    decode tcfg { row := 34, bits := [0x7E, 0xFF, 0x06, 0x44, 0x00, 0x00, 0x00, 0xFE, 0xB7, 0xEF], tmo := 100 } = .ok (.qeq 100) := by decide
theorem test_decode_qmode :
    decode tcfg { row := 35, bits := [0x7E, 0xFF, 0x06, 0x45, 0x00, 0x00, 0x00, 0xFE, 0xB6, 0xEF], tmo := 100 } = .ok (.qmode 100) := by decide
theorem test_decode_qversion :
    decode tcfg { row := 36, bits := [0x7E, 0xFF, 0x06, 0x46, 0x00, 0x00, 0x00, 0xFE, 0xB5, 0xEF], tmo := 100 } = .ok (.qversion 100) := by decide
theorem test_decode_qcount :
    decode tcfg { row := 37, bits := [0x7E, 0xFF, 0x06, 0x49, 0x00, 0x00, 0x00, 0xFE, 0xB2, 0xEF], med := 2, tmo := 100 } = .ok (.qcount 2 100) := by decide
theorem test_decode_qcurtrack :
    decode tcfg { row := 38, bits := [0x7E, 0xFF, 0x06, 0x4C, 0x00, 0x00, 0x00, 0xFE, 0xAF, 0xEF], med := 1, tmo := 100 } = .ok (.qcurtrack 1 100) := by decide
theorem test_decode_qfolders :
    decode tcfg { row := 39, bits := [0x7E, 0xFF, 0x06, 0x4F, 0x00, 0x00, 0x00, 0xFE, 0xAC, 0xEF], tmo := 100 } = .ok (.qfolders 100) := by decide
theorem test_decode_qfoldertracks :
    decode tcfg { row := 40, bits := [0x7E, 0xFF, 0x06, 0x4E, 0x00, 0x01, 0x00, 0xFE, 0xAC, 0xEF], tmo := 50 } = .ok (.qfoldertracks 256 50) := by decide
theorem test_decode_rxframe :
    decode tcfg { row := 41, bits := [0x7E, 0xFF, 0x06, 0x43, 0x01, 0xAB, 0xCD, 0xFD, 0x3F, 0xEF] } = .ok (.rxframe 0x43 0x01 0xAB 0xCD) := by decide
theorem test_decode_rxerror :
    decode tcfg { row := 42, bits := [0x7E, 0xFF, 0x06, 0x40, 0x00, 0x00, 0x05, 0xFE, 0xB6, 0xEF] } = .ok (.rxerror 0x00 0x00 0x05) := by decide
theorem test_decode_rxbyte :
    decode tcfg { row := 43, bits := [0xEF] } = .ok (.rxbyte 0xEF) := by decide
theorem test_decode_tick :
    decode tcfg { row := 44, bits := [] } = .ok .tick := by decide
theorem test_decode_reset :
    decode tcfg { row := 45, bits := [] } = .ok .reset := by decide

-- Each refusal of the decoder, by name.
theorem test_refuse_row :
    decode tcfg { row := 46, bits := [0x7E, 0xFF, 0x06, 0x0D, 0x00, 0x01, 0x2C, 0xFE, 0xC1, 0xEF] } = .error .noSuchRow := by decide
theorem test_refuse_length :
    decode tcfg { row := 0, bits := [0x7E, 0xFF, 0x06, 0x0D, 0x00, 0x01, 0x2C, 0xFE, 0xC1] } = .error .wrongLength := by decide
theorem test_refuse_start :
    decode tcfg { row := 0, bits := [0x7F, 0xFF, 0x06, 0x0D, 0x00, 0x01, 0x2C, 0xFE, 0xC1, 0xEF] } = .error .badStart := by decide
theorem test_refuse_version :
    decode tcfg { row := 0, bits := [0x7E, 0xFE, 0x06, 0x0D, 0x00, 0x01, 0x2C, 0xFE, 0xC1, 0xEF] } = .error .badVersion := by decide
theorem test_refuse_length_byte :
    decode tcfg { row := 0, bits := [0x7E, 0xFF, 0x07, 0x0D, 0x00, 0x01, 0x2C, 0xFE, 0xC1, 0xEF] } = .error .badLength := by decide
theorem test_refuse_end :
    decode tcfg { row := 0, bits := [0x7E, 0xFF, 0x06, 0x0D, 0x00, 0x01, 0x2C, 0xFE, 0xC1, 0xEE] } = .error .badEnd := by decide
theorem test_refuse_checksum :
    decode tcfg { row := 0, bits := [0x7E, 0xFF, 0x06, 0x0C, 0x00, 0x01, 0x2C, 0xFE, 0xC1, 0xEF] } = .error .badChecksum := by decide
theorem test_refuse_feedback :
    decode tcfg { row := 0, bits := [0x7E, 0xFF, 0x06, 0x0D, 0x01, 0x00, 0x01, 0xFE, 0xEC, 0xEF] } = .error .badFeedback := by decide
theorem test_refuse_code :
    decode tcfg { row := 0, bits := [0x7E, 0xFF, 0x06, 0x0C, 0x00, 0x00, 0x01, 0xFE, 0xEE, 0xEF] } = .error .wrongCode := by decide
theorem test_refuse_params :
    decode tcfg { row := 1, bits := [0x7E, 0xFF, 0x06, 0x0E, 0x00, 0x00, 0x01, 0xFE, 0xEC, 0xEF] } = .error .badParams := by decide
theorem test_refuse_invalid_operand :
    decode tcfg { row := 7, bits := [0x7E, 0xFF, 0x06, 0x06, 0x00, 0x00, 0x1F, 0xFE, 0xD6, 0xEF] } = .error .notSent := by decide
theorem test_refuse_medium :
    decode tcfg { row := 37, bits := [0x7E, 0xFF, 0x06, 0x47, 0x00, 0x00, 0x00, 0xFE, 0xB4, 0xEF] } = .error .notAMedium := by decide
theorem test_refuse_stray :
    decode tcfg { row := 0, bits := [0x7E, 0xFF, 0x06, 0x0D, 0x00, 0x01, 0x2C, 0xFE, 0xC1, 0xEF], tmo := 1 } = .error .strayOperand := by decide
theorem test_refuse_timeout_width :
    decode tcfg { row := 31, bits := [0x7E, 0xFF, 0x06, 0x43, 0x00, 0x00, 0x00, 0xFE, 0xB8, 0xEF], tmo := 4294967296 } = .error .timeoutTooWide := by decide

-- Bare table words, the first byte in the low bits as well as in the high ones.
theorem test_table_word_low_first : decodeTableWord 80 0xEFC1FE2C01000D06FF7E = some (.play 300) := by decide
theorem test_fetch_word_runs :
    (match step (State.reset.withFetchWord 80 0x7EFF060D00012CFEC1EF) with | .next t => t.tx.take 4 | _ => [])
      = [0x7E, 0xFF, 0x06, 0x0D] := by decide

-- Single steps; the vector of 95_test_vectors.md stands in each name.
theorem test_V1_play_300 : (issue tcfg .play (.val16 300) State.reset).tx = [0x7E, 0xFF, 0x06, 0x0D, 0x00, 0x01, 0x2C, 0xFE, 0xC1, 0xEF] := by decide
theorem test_V43_volset_30 : (issue tcfg .volset (.val16 30) State.reset).tx = [0x7E, 0xFF, 0x06, 0x06, 0x00, 0x00, 0x1E, 0xFE, 0xD7, 0xEF] := by decide
theorem test_V43_volset_256 : (issue tcfg .volset (.val16 256) State.reset).tx = [] := by decide
theorem test_V44_eq_5 : (issue tcfg .eq (.val16 5) State.reset).tx = [0x7E, 0xFF, 0x06, 0x07, 0x00, 0x00, 0x05, 0xFE, 0xEF, 0xEF] := by decide
theorem test_V44_eq_6 : (issue tcfg .eq (.val16 6) State.reset).tx = [] := by decide
theorem test_V45_gain_31 : (issue tcfg .gain (.val16 31) State.reset).tx = [0x7E, 0xFF, 0x06, 0x10, 0x00, 0x00, 0x1F, 0xFE, 0xCC, 0xEF] := by decide
theorem test_V45_gain_32 : (issue tcfg .gain (.val16 32) State.reset).tx = [] := by decide
theorem test_V46_folder : (issue tcfg .folder (.bytes2 255 255) State.reset).tx = [0x7E, 0xFF, 0x06, 0x0F, 0x00, 0xFF, 0xFF, 0xFC, 0xEE, 0xEF] := by decide
theorem test_V47_lfolder : (issue tcfg .lfolder (.packLf 2 300) State.reset).tx = [0x7E, 0xFF, 0x06, 0x14, 0x00, 0x21, 0x2C, 0xFE, 0x9A, 0xEF] := by decide
theorem test_V47c_lfolder_truncates : (issue tcfg .lfolder (.packLf 16 4096) State.reset).tx = [0x7E, 0xFF, 0x06, 0x14, 0x00, 0x00, 0x00, 0xFE, 0xE7, 0xEF] := by decide
theorem test_V48_pause : (issue tcfg .pause (.none) State.reset).tx = [0x7E, 0xFF, 0x06, 0x0E, 0x00, 0x00, 0x00, 0xFE, 0xED, 0xEF] := by decide
theorem test_V48b_repcur_start : (issue tcfg .repcurStart (.none) State.reset).tx = [0x7E, 0xFF, 0x06, 0x19, 0x00, 0x00, 0x00, 0xFE, 0xE2, 0xEF] := by decide
theorem test_V48b_repcur_stop : (issue tcfg .repcurStop (.none) State.reset).tx = [0x7E, 0xFF, 0x06, 0x19, 0x00, 0x00, 0x01, 0xFE, 0xE1, 0xEF] := by decide
theorem test_V49_source_2 : (issue tcfg .source (.val16 2) State.reset).tx = [0x7E, 0xFF, 0x06, 0x09, 0x00, 0x00, 0x02, 0xFE, 0xF0, 0xEF] := by decide
theorem test_V49_source_3 : (issue tcfg .source (.val16 3) State.reset).tx = [] := by decide
theorem test_V49b_loopmode : (issue tcfg .loopmode (.val16 2) State.reset).tx = [0x7E, 0xFF, 0x06, 0x08, 0x00, 0x00, 0x02, 0xFE, 0xF1, 0xEF] := by decide
theorem test_V49b_advert : (issue tcfg .advert (.val16 3) State.reset).tx = [0x7E, 0xFF, 0x06, 0x13, 0x00, 0x00, 0x03, 0xFE, 0xE5, 0xEF] := by decide
theorem test_V49b_repfolder_start : (issue tcfg .repfolderStart (.val16 4) State.reset).tx = [0x7E, 0xFF, 0x06, 0x17, 0x00, 0x00, 0x04, 0xFE, 0xE0, 0xEF] := by decide

/-- A state at a parser position with bytes captured. -/
def awaiting (p : Pos) (F : Frame) : State := { State.reset with pos := p, rxf := F }

/-- A state with a query pending. -/
def pendingOn (code : Byte) (since limit clock : Nat) : State :=
  { State.reset with pend := true, expc := code, tstart := since, tmo := limit, now := clock }

/-- The same with a frame received up to its end marker. -/
def pendingAtEnd (code : Byte) (F : Frame) : State := { pendingOn code 0 100 0 with pos := .awaitEnd, rxf := F }

/-- The frames V1, V9, V25 (ill-formed), X, Y and A of 95_test_vectors.md. -/
def frameV1 : Frame := ⟨0x7E, 0xFF, 0x06, 0x0D, 0x00, 0x01, 0x2C, 0xFE, 0xC1, 0xEF⟩
def frameV9 : Frame := ⟨0x7E, 0xFF, 0x06, 0x0C, 0x01, 0x01, 0x2C, 0xFE, 0xC1, 0xEF⟩
def frameV25 : Frame := ⟨0x7E, 0xFF, 0x06, 0x0C, 0x00, 0x01, 0x2C, 0xFE, 0xC1, 0xEF⟩
def frameX : Frame := ⟨0x7E, 0xFF, 0x06, 0x43, 0x00, 0x00, 0x14, 0xFE, 0xA4, 0xEF⟩
def frameY : Frame := ⟨0x7E, 0xFF, 0x06, 0x3F, 0x00, 0x00, 0x02, 0xFE, 0xBA, 0xEF⟩
def frameA : Frame := ⟨0x7E, 0xFF, 0x06, 0x7E, 0xFF, 0x06, 0x00, 0xFD, 0x78, 0xEF⟩
def frameError : Frame := ⟨0x7E, 0xFF, 0x06, 0x40, 0x00, 0x00, 0x05, 0xFE, 0xB6, 0xEF⟩

theorem test_V60_ask : ask tcfg 0x43 0 0 100 State.reset =
    { pendingOn 0x43 0 100 0 with
      tx := [0x7E, 0xFF, 0x06, 0x43, 0x00, 0x00, 0x00, 0xFE, 0xB8, 0xEF]
      out := [.tx ⟨0x7E, 0xFF, 0x06, 0x43, 0x00, 0x00, 0x00, 0xFE, 0xB8, 0xEF⟩] } := by decide
theorem test_E5_busy :
    ask tcfg 0x44 0 0 7 (pendingOn 0x43 0 100 0) = { pendingOn 0x43 0 100 0 with out := [.qresult .busy] } := by decide
theorem test_V20_clean_frame : (drive tcfg (frameBytes frameV1) State.reset).out = [.sink frameV1 none] := by decide
theorem test_V22_lost : (drive tcfg (0x7E :: frameBytes frameV1) State.reset).out = [.decodeFail .badVersion] := by decide
theorem test_V25_bad_checksum : (drive tcfg (frameBytes frameV25) State.reset).out = [.decodeFail .badChecksum] := by decide
theorem test_V63_value :
    (drive tcfg [0x7E, 0xFF, 0x06, 0x43, 0x01, 0xAB, 0xCD, 0xFD, 0x3F, 0xEF] (pendingOn 0x43 0 100 0)).out
      = [.qresult (.value 0xABCD)] := by decide
theorem test_E2_device_error :
    (drive tcfg (frameBytes frameError) (pendingOn 0x43 0 100 0)).out = [.qresult (.deviceError 0x05 .trackOutOfRange)] := by
  decide
theorem test_V72_error_to_sink :
    (drive tcfg (frameBytes frameError) State.reset).out = [.sink frameError (some .trackOutOfRange)] := by decide
theorem test_V66_tick_wraps : tickEvent tcfg (pendingOn 0x43 0xFFFFFFFE 3 0xFFFFFFFF) = pendingOn 0x43 0xFFFFFFFE 3 0 := by decide
theorem test_V64_timeout :
    tickEvent tcfg (pendingOn 0x43 5 10 14) = { pendingOn 0x43 5 10 15 with pend := false, out := [.qresult .timeout] } := by decide
theorem test_V90_reset_drops_the_query :
    (resetEvent tcfg (pendingOn 0x43 7 100 7)).pend = false ∧ (resetEvent tcfg (pendingOn 0x43 7 100 7)).now = 0
      ∧ (resetEvent tcfg (pendingOn 0x43 7 100 7)).out = [] := by decide
theorem test_V81_describe : describe tcfg 0x09 = .unknown 0x09 ∧ describe tcfg 0x05 = .trackOutOfRange := by decide
theorem test_V5_checksum_wraps : checksumOf ⟨0x7E, 0, 0, 0, 0, 0, 0, 0x7E, 0x7E, 0x7E⟩ = 0 := by decide
theorem test_present_keeps_order :
    (present [.rxbyte 0x7E, .tick] { State.reset with inq := [.pause] }).inq = [.pause, .rxbyte 0x7E, .tick] := by decide
theorem test_pending_rx : pendingRx { State.reset with inq := [.rxbyte 0x7E, .tick, .rxbyte 0xFF] } = [0x7E, 0xFF] := by decide
theorem test_script_lines :
    [ScriptLine.reset, .rx [0x7E, 0xFF], .tick 2, .op .pause].flatMap lineEvents
      = [.reset, .rxbyte 0x7E, .rxbyte 0xFF, .tick, .tick, .pause] := by decide
theorem test_quiescent : quiescent State.reset = true ∧ quiescent (pendingOn 0x43 0 100 0) = false := by decide

-- What the statements assume can be met: for each statement with hypotheses, values that meet all of them.
theorem witness_ChangedSumIsDetected :
    frameWf frameV1 = true ∧ frameV9.ckmsb = frameV1.ckmsb ∧ frameV9.cklsb = frameV1.cklsb ∧ sixSum frameV9 = sixSum frameV1
      ∧ frameV25.ckmsb = frameV1.ckmsb ∧ frameV25.cklsb = frameV1.cklsb ∧ sixSum frameV25 ≠ sixSum frameV1 := by decide
theorem witness_DecodeOfEncodeIsTheInstruction :
    Instr.encodable tcfg (.volset 30) = true ∧ Instr.encodable tcfg (.lfolder 15 4095) = true
      ∧ Instr.encodable tcfg (.qcount 2 0xFFFFFFFF) = true ∧ Instr.encodable tcfg (.qcount 2 0x100000000) = false ∧ Instr.encodable tcfg (.volset 31) = false
      ∧ Instr.encodable tcfg (.lfolder 16 0) = false ∧ Instr.encodable tcfg (.lfolder 0 4096) = false := by decide
theorem witness_EncodeOfDecodeIsTheWord :
    decode tcfg { row := 0, bits := frameBytes frameV1 } = .ok (.play 300)
      ∧ decode tcfg { row := 43, bits := [0x7E] } = .ok (.rxbyte 0x7E) := by decide
theorem witness_StepRunsTheNextEvent :
    { State.reset with inq := [.tick, .reset] }.inq = .tick :: [.reset] ∧ State.reset.inq = [] := by decide
theorem witness_StepRunsTheDecodedWord : decodeTableWord 80 0x7EFF060D00012CFEC1EF = some (.play 300) := by decide
theorem witness_ResetLeavesTheStreams : ∀ b ∈ [(0x7D : Byte), 0x7F, 0xEF], b ≠ 0x7E := by decide
theorem witness_AwaitStartTakesOnlyTheMarker :
    State.reset.pos = .awaitStart ∧ (0x7E : Byte) = 0x7E ∧ (0x7D : Byte) ≠ 0x7E ∧ (0x7F : Byte) ≠ 0x7E := by decide
theorem witness_AwaitVersionChecksTheVersion :
    (awaiting .awaitVersion frameV1).pos = .awaitVersion ∧ (0xFF : Byte) = 0xFF ∧ (0xFE : Byte) ≠ 0xFF := by decide
theorem witness_AwaitLengthChecksTheLength :
    (awaiting .awaitLength frameV1).pos = .awaitLength ∧ (0x06 : Byte) = 0x06 ∧ (0x05 : Byte) ≠ 0x06 ∧ (0x07 : Byte) ≠ 0x06 := by
  decide
theorem witness_MiddleBytesAreCapturedUnconditionally :
    (awaiting .awaitCommand frameV1).pos = .awaitCommand ∧ (awaiting .awaitFeedback frameV1).pos = .awaitFeedback
      ∧ (awaiting .awaitParamMsb frameV1).pos = .awaitParamMsb ∧ (awaiting .awaitParamLsb frameV1).pos = .awaitParamLsb
      ∧ (awaiting .awaitChecksumMsb frameV1).pos = .awaitChecksumMsb := by decide
theorem witness_ChecksumIsJudgedAtTheLowByte :
    (awaiting .awaitChecksumLsb frameV1).pos = .awaitChecksumLsb
      ∧ 256 * frameV1.ckmsb.toNat + (0xC1 : Byte).toNat = (0x10000 - sixSum frameV1) % 0x10000
      ∧ 256 * frameV1.ckmsb.toNat + (0xC0 : Byte).toNat ≠ (0x10000 - sixSum frameV1) % 0x10000
      ∧ 256 * frameV1.ckmsb.toNat + (0xC2 : Byte).toNat ≠ (0x10000 - sixSum frameV1) % 0x10000 := by decide
theorem witness_WrongEndMarkerDropsTheFrame :
    (awaiting .awaitEnd frameV1).pos = .awaitEnd ∧ (0xEE : Byte) ≠ 0xEF ∧ (0xF0 : Byte) ≠ 0xEF := by decide
theorem witness_ErrorFrameResolvesThePendingQuery :
    (pendingAtEnd 0x43 frameError).pos = .awaitEnd ∧ (pendingAtEnd 0x43 frameError).pend = true
      ∧ (pendingAtEnd 0x43 frameError).rxf.cmd = 0x40 := by decide
theorem witness_ReplyResolvesThePendingQuery :
    (pendingAtEnd 0x43 frameX).pos = .awaitEnd ∧ (pendingAtEnd 0x43 frameX).pend = true
      ∧ (pendingAtEnd 0x43 frameX).rxf.cmd ≠ 0x40
      ∧ (pendingAtEnd 0x43 frameX).rxf.cmd = (pendingAtEnd 0x43 frameX).expc := by decide
theorem witness_OtherFramesPassToTheSink :
    (awaiting .awaitEnd frameError).pos = .awaitEnd ∧ (awaiting .awaitEnd frameError).pend = false
      ∧ (pendingAtEnd 0x43 frameY).pos = .awaitEnd ∧ (pendingAtEnd 0x43 frameY).rxf.cmd ≠ 0x40
      ∧ (pendingAtEnd 0x43 frameY).rxf.cmd ≠ (pendingAtEnd 0x43 frameY).expc := by decide
theorem witness_ReceivedFrameRoundTrip :
    State.reset.pos = .awaitStart ∧ (pendingOn 0x43 0 100 0).pos = .awaitStart ∧ (pendingOn 0x43 0 100 0).pend = true
      ∧ (pendingOn 0x43 0 100 0).expc = 0x43 ∧ (0x43 : Byte) ≠ 0x40 := by decide
theorem witness_ResyncAfterACleanPrefix :
    State.reset.pos = .awaitStart ∧ frameWf frameV1 = true
      ∧ (deliver [0x7E, 0x00] State.reset
          = .next { awaiting .awaitStart { State.reset.rxf with start := 0x7E } with out := [.decodeFail .badVersion] })
      ∧ ∀ b ∈ [(0x00 : Byte), 0x55, 0xEF], b ≠ 0x7E := ⟨rfl, by decide, rfl, by decide⟩
theorem witness_SingleBitFlipIsRejected :
    frameWf frameV1 = true ∧ State.reset.pos = .awaitStart ∧ 1 ≤ 1 ∧ 6 ≤ 6 ∧ 0 < 8 ∧ 7 < 8
      ∧ flipBit frameV1 3 0 = frameBytes frameV25 := by decide
theorem witness_ParserReturnsWithinTenBytes :
    (List.replicate 10 (0x00 : Byte)).length = 10 - posOffset State.reset.pos
      ∧ [(0xEF : Byte)].length = 10 - posOffset (awaiting .awaitEnd frameV1).pos := by decide
theorem witness_FailureEatsTheNextStartMarker :
    frameWf frameV1 = true ∧ (∀ b ∈ (frameBytes frameV1).drop 1, b ≠ 0x7E) ∧ (awaiting .awaitVersion frameV1).pos = .awaitVersion
      ∧ (awaiting .awaitChecksumLsb frameV1).pos = .awaitChecksumLsb
      ∧ 256 * frameV1.ckmsb.toNat + 0x7E ≠ (0x10000 - sixSum frameV1) % 0x10000
      ∧ (awaiting .awaitLength frameV1).pos = .awaitLength ∧ (awaiting .awaitEnd frameV1).pos = .awaitEnd := by decide
theorem witness_CleanStreamHasNoSpuriousFrame :
    (∀ W ∈ [frameA, frameX, frameX], frameWf W = true) ∧ State.reset.pos = .awaitStart ∧ State.reset.pend = false := by decide
theorem witness_DecodeFailureIsTransparentToTheQuery :
    exec (.rxbyte 0x00) (awaiting .awaitVersion frameV1)
        = .next { awaiting .awaitStart frameV1 with out := [.decodeFail .badVersion] }
      ∧ (awaiting .awaitVersion frameV1).pos = { pendingOn 0x43 1 2 3 with pos := .awaitVersion, rxf := frameV1 }.pos
      ∧ (awaiting .awaitVersion frameV1).rxf = { pendingOn 0x43 1 2 3 with pos := .awaitVersion, rxf := frameV1 }.rxf
      ∧ exec .tick State.reset = .next { State.reset with now := truncTicks cfg 1 } := ⟨rfl, rfl, rfl, rfl⟩
theorem witness_RangeCheckedActionsSendOrDoNothing :
    (30 : Word).toNat ≤ 30 ∧ 30 < (31 : Word).toNat ∧ (5 : Word).toNat ≤ 5 ∧ 5 < (6 : Word).toNat ∧ (31 : Word).toNat ≤ 31
      ∧ 31 < (32 : Word).toNat := by decide
/-- Timeouts 0 and 1, and the largest, fit `cfg.TW` bits whatever TW is. -/
theorem fits_cfg : 0 < 2 ^ cfg.tw ∧ 1 < 2 ^ cfg.tw ∧ 2 ^ cfg.tw - 1 < 2 ^ cfg.tw := by
  have h : 0 < 2 ^ Config.twLessOne := Nat.two_pow_pos _
  have e : 2 ^ cfg.tw = 2 ^ Config.twLessOne * 2 := pow_succ _ _
  omega

/-- So a count of 0 or 1 is kept whole. -/
theorem truncTicks_cfg : truncTicks cfg 0 = 0 ∧ truncTicks cfg 1 = 1 :=
  ⟨truncTicks_of_lt fits_cfg.1, truncTicks_of_lt fits_cfg.2.1⟩

/-- A state in which the deadline of the pending query falls on the next tick. -/
def duePending : State := pendingOn 0x43 0 1 0

theorem elapsed_one : elapsedTicks cfg 1 0 = 1 := by
  rw [elapsedTicks, truncTicks_cfg.1, Nat.sub_zero, truncTicks, Nat.add_mod_right]
  exact truncTicks_cfg.2

theorem tick_duePending :
    exec .tick duePending = .next { duePending with now := 1, pend := false, out := [.qresult .timeout] } := by
  have hnow : truncTicks cfg (duePending.now + 1) = 1 := truncTicks_cfg.2
  obtain ⟨-, -, h⟩ | ⟨h, -⟩ := tickEvent_cases cfg duePending
  · rw [hnow] at h
    exact congrArg _ h
  · rw [hnow] at h
    exact absurd ⟨rfl, elapsed_one.ge⟩ h

/-- The deadline of `duePending` as the statements write it. -/
theorem duePending_deadline : (duePending.tmo : Int) = ((duePending.now : Int) + 1 - duePending.tstart) % 2 ^ cfg.tw := by
  have e := elapsedTicks_eq cfg 1 0
  rw [elapsed_one] at e
  simpa [duePending, pendingOn, State.reset] using e

theorem witness_AcceptedAskSendsAndRegisters :
    0 < 2 ^ cfg.tw ∧ 2 ^ cfg.tw - 1 < 2 ^ cfg.tw ∧ State.reset.pend = false := ⟨fits_cfg.1, fits_cfg.2.2, rfl⟩
theorem witness_WrappersSendTheirQuery :
    0 < 2 ^ cfg.tw ∧ 2 ^ cfg.tw - 1 < 2 ^ cfg.tw ∧ State.reset.pend = false ∧ (pendingOn 0x43 0 100 0).pend = true :=
  ⟨fits_cfg.1, fits_cfg.2.2, rfl, rfl⟩
theorem witness_MediumWrappersSendTheirQuery :
    0 < 2 ^ cfg.tw ∧ 2 ^ cfg.tw - 1 < 2 ^ cfg.tw ∧ State.reset.pend = false ∧ (pendingOn 0x43 0 100 0).pend = true :=
  ⟨fits_cfg.1, fits_cfg.2.2, rfl, rfl⟩
theorem witness_SecondAskIsBusy :
    0 < 2 ^ cfg.tw ∧ 2 ^ cfg.tw - 1 < 2 ^ cfg.tw ∧ (pendingOn 0x43 0 100 0).pend = true := ⟨fits_cfg.1, fits_cfg.2.2, rfl⟩
theorem witness_TickCountsAndTimesOut :
    (duePending.pend = true ∧ (duePending.tmo : Int) = ((duePending.now : Int) + 1 - duePending.tstart) % 2 ^ cfg.tw)
      ∧ ((pendingOn 0x43 1 1 0).pend = true ∧ ((0 : Int) + 1 - 1) % 2 ^ cfg.tw + 1 = (pendingOn 0x43 1 1 0).tmo)
      ∧ State.reset.pend = false :=
  ⟨⟨rfl, duePending_deadline⟩, ⟨rfl, by norm_num [pendingOn]⟩, rfl⟩

/-- The state after a query with timeout `limit` was accepted at reset. -/
def asked (limit : Nat) : State := ask cfg 0x43 0 0 limit State.reset

theorem witness_TimeoutAfterExactlyTmoTicks :
    askOf cfg (.ask 0x43 0 0 1) = some (0x43, 0, 0, 1) ∧ 1 < 2 ^ cfg.tw ∧ State.reset.pend = false
      ∧ exec (.ask 0x43 0 0 1) State.reset = .next (asked 1) ∧ Instr.reset ∉ [Instr.rxbyte 0x55]
      ∧ runEvents [.rxbyte 0x55] (asked 1) = .next (asked 1) ∧ (asked 1).out = (asked 1).out ++ []
      ∧ tickCount [.rxbyte 0x55] + 1 = max 1 1 :=
  ⟨rfl, fits_cfg.2.1, rfl, rfl, by decide, rfl, by simp, rfl⟩
theorem witness_TimeoutAfterExactlyTmoTicks_zero :
    0 < 2 ^ cfg.tw ∧ exec (.ask 0x43 0 0 0) State.reset = .next (asked 0) ∧ runEvents [] (asked 0) = .next (asked 0)
      ∧ tickCount [] + 1 = max 0 1 := ⟨fits_cfg.1, rfl, rfl, rfl⟩
theorem witness_PendingQueryStaysUntilResolved :
    (pendingOn 0x43 0 100 0).pend = true ∧ Instr.reset ∉ [.ask 0x44 0 0 7, Instr.rxbyte 0x55]
      ∧ runEvents [.ask 0x44 0 0 7, .rxbyte 0x55] (pendingOn 0x43 0 100 0)
          = .next { pendingOn 0x43 0 100 0 with out := [] ++ [.qresult .busy] }
      ∧ ∀ e ∈ [OutEvent.qresult .busy], resolving e = false := ⟨rfl, by decide, rfl, by decide⟩
theorem witness_ResolutionClearsTheQuery :
    exec .tick duePending = .next { duePending with now := 1, pend := false, out := [] ++ [.qresult .timeout] }
      ∧ Res.timeout ≠ .busy ∧ 0 < 2 ^ cfg.tw := ⟨tick_duePending, by decide, fits_cfg.1⟩
theorem witness_EveryStepKeepsTheInvariant :
    Inv { awaiting .awaitVersion { frameV1 with ver := 0 } with inq := [.rxbyte 0xFF] }
      ∧ step { awaiting .awaitVersion { frameV1 with ver := 0 } with inq := [.rxbyte 0xFF] }
          = .next (awaiting .awaitLength frameV1) := by
  refine ⟨⟨⟨?_, ?_, ?_, ?_⟩, ⟨fits_cfg.1, fits_cfg.1, fits_cfg.1⟩, ?_, ?_⟩, rfl⟩
  all_goals simp [awaiting, posOffset, frameV1, State.reset]
theorem witness_TxGrowsOnlyByIssueOrAcceptedAsk :
    issuesFrame cfg (.play 300) = true ∧ ((askOf cfg (.ask 0x43 0 0 100)).isSome = true ∧ State.reset.pend = false)
      ∧ issuesFrame cfg (.volset 30) = true ∧ issuesFrame cfg (.volset 31) = false ∧ (askOf cfg (.volset 31)).isSome = false
      ∧ exec (.volset 31) State.reset = .next State.reset := ⟨rfl, ⟨rfl, rfl⟩, rfl, rfl, rfl, rfl⟩
theorem witness_ControlActionsAreFireAndForget :
    (issueOf (.volset 31)).isSome = true ∧ (issueOf .pause).isSome = true ∧ (issueOf (.lfolder 1 2)).isSome = true := by decide
theorem witness_DirectionsAreIndependent :
    (issueOf .pause).isSome = true ∧ (askOf cfg (.ask 0x43 0 0 100)).isSome = true
      ∧ State.reset.pend = (awaiting .awaitEnd frameV1).pend
      ∧ (∃ t t' : State, exec .pause State.reset = .next t ∧ exec .pause (awaiting .awaitEnd frameV1) = .next t')
      ∧ ∃ t : State, exec (.rxframe 0x43 0 0 0x14) State.reset = .next t :=
  ⟨rfl, rfl, rfl, ⟨_, _, rfl, rfl⟩, ⟨_, rfl⟩⟩
theorem witness_WhoWritesWhichRegister :
    exec .tick State.reset = .next { State.reset with now := truncTicks cfg 1 } ∧ Instr.tick ≠ .reset
      ∧ ¬((askOf cfg .tick).isSome = true ∧ State.reset.pend = false) ∧ (∀ b, Instr.tick ≠ .rxbyte b)
      ∧ (∀ c f m l, Instr.tick ≠ .rxframe c f m l) ∧ ∀ f m l, Instr.tick ≠ .rxerror f m l := by
  refine ⟨rfl, by decide, by decide, ?_, ?_, ?_⟩ <;> intros <;> simp
theorem witness_PendIsSetOnlyByAQuery :
    exec (.ask 0x43 0 0 3) State.reset = .next (asked 3) ∧ State.reset.pend = false ∧ (asked 3).pend = true
      ∧ duePending.pend = true
      ∧ exec .tick duePending = .next { duePending with now := 1, pend := false, out := [.qresult .timeout] } :=
  ⟨rfl, rfl, rfl, rfl, tick_duePending⟩
theorem witness_OneEventRaisesAtMostOneOutput :
    exec (.ask 0x44 0 0 7) (pendingOn 0x43 0 100 0) = .next { pendingOn 0x43 0 100 0 with out := [.qresult .busy] }
      ∧ (∀ c f m l, Instr.ask 0x44 0 0 7 ≠ .rxframe c f m l) ∧ ∀ f m l, Instr.ask 0x44 0 0 7 ≠ .rxerror f m l := by
  refine ⟨rfl, ?_, ?_⟩ <;> intros <;> simp
theorem witness_SameCycleInputsByteFirst :
    0 < 2 ^ cfg.tw ∧ (pendingAtEnd 0x43 frameX).pos = .awaitEnd ∧ (pendingAtEnd 0x43 frameX).pend = true
      ∧ (pendingAtEnd 0x43 frameX).rxf.cmd = (pendingAtEnd 0x43 frameX).expc
      ∧ (pendingAtEnd 0x43 frameError).pos = .awaitEnd ∧ (pendingAtEnd 0x43 frameError).pend = true
      ∧ (pendingAtEnd 0x43 frameError).rxf.cmd = 0x40 :=
  ⟨fits_cfg.1, by decide, by decide, by decide, by decide, by decide, by decide⟩
theorem witness_SameCycleInputsByteFirst_timeout :
    runEvents (sameCycle none false none) duePending = .next duePending
      ∧ runEvents (sameCycle (some 0x55) false none) duePending = .next duePending ∧ duePending.pend = true
      ∧ (duePending.tmo : Int) = ((duePending.now : Int) + 1 - duePending.tstart) % 2 ^ cfg.tw :=
  ⟨rfl, rfl, rfl, duePending_deadline⟩

end Sys2Proof.Tests
end

section
/-! The frame codec (spec/40_framecodec.md): the checksum as a number, what `encodeFrame` carries at offsets 7 and 8, and the
statements of that family. -/

namespace Sys2Proof.Machine
open Safety

/-- Six bytes add up to at most 6 · 255 (40_framecodec.md R92). -/
theorem sixSum_le (F : Frame) : sixSum F ≤ 0x05FA := by
  unfold sixSum
  bv_omega

/-- The 16-bit sum of R90 never wraps, so it is the sum of the bytes as numbers (R92). -/
theorem frameSum_toNat (F : Frame) : (frameSum F).toNat = sixSum F := by
  have hle := sixSum_le F
  unfold sixSum at hle ⊢
  unfold frameSum
  bv_omega

/-- NOT plus one is negation (R90), which as a number is the distance of the six-byte sum from 2^16. -/
theorem checksumOf_toNat (F : Frame) : (checksumOf F).toNat = (0x10000 - sixSum F) % 0x10000 := by
  have hneg : checksumOf F = -frameSum F := (BitVec.neg_eq_not_add (frameSum F)).symm
  rw [hneg, BitVec.toNat_neg, frameSum_toNat]

/-- The constants 0xFF and 0x06 at offsets 1 and 2 contribute 0x0105 to an encoded frame's sum (R92). -/
theorem sixSum_encodeFrame (c f m l : Byte) :
    sixSum (encodeFrame c f m l) = 0x0105 + c.toNat + f.toNat + m.toNat + l.toNat := by
  simp [sixSum, VERSION, LENGTH]

/-- The sum of an encoded frame lies strictly between 0 and 2^16, so its checksum needs no reduction (R92). -/
theorem checksumOf_encodeFrame_toNat (c f m l : Byte) :
    (checksumOf (encodeFrame c f m l)).toNat = 0x10000 - (0x0105 + c.toNat + f.toNat + m.toNat + l.toNat) := by
  rw [checksumOf_toNat, sixSum_encodeFrame]
  omega

/-- `encodeFrame` computes the checksum with offsets 7 and 8 still zero; the checksum of the finished frame is the same,
since those offsets do not enter it (R90, R91). -/
theorem encodeFrame_ckmsb (c f m l : Byte) :
    (encodeFrame c f m l).ckmsb = hiByte (checksumOf (encodeFrame c f m l)) := rfl

theorem encodeFrame_cklsb (c f m l : Byte) :
    (encodeFrame c f m l).cklsb = loByte (checksumOf (encodeFrame c f m l)) := rfl

/-- An encoded frame carries its own checksum (R93). -/
@[simp] theorem frameChecksum_encodeFrame (c f m l : Byte) :
    frameChecksum (encodeFrame c f m l) = checksumOf (encodeFrame c f m l) := by
  rw [frameChecksum, encodeFrame_ckmsb, encodeFrame_cklsb, joinBytes_hi_lo]

/-- An encoded frame is well-formed (R93; 30_encoding.md R61). -/
@[simp] theorem frameWf_encodeFrame (c f m l : Byte) : frameWf (encodeFrame c f m l) = true :=
  (frameWf_iff _).mpr ⟨rfl, rfl, rfl, rfl, frameChecksum_encodeFrame c f m l⟩

theorem hiByte_eq_ofNat (v : Word) : hiByte v = BitVec.ofNat 8 (v.toNat / 256) := by
  rw [← hiByte_toNat, BitVec.ofNat_toNat, BitVec.setWidth_eq]

theorem loByte_eq_ofNat (v : Word) : loByte v = BitVec.ofNat 8 (v.toNat % 256) := by
  rw [← loByte_toNat, BitVec.ofNat_toNat, BitVec.setWidth_eq]

/-- The frame the codec builds is the frame the spec writes out, the checksum's high byte at offset 7 (R91, R92). -/
theorem encodeFrame_eq_specFrame (c f m l : Byte) : encodeFrame c f m l = specFrame c f m l := by
  have hhi := encodeFrame_ckmsb c f m l
  have hlo := encodeFrame_cklsb c f m l
  rw [hiByte_eq_ofNat, checksumOf_encodeFrame_toNat] at hhi
  rw [loByte_eq_ofNat, checksumOf_encodeFrame_toNat] at hlo
  calc encodeFrame c f m l
      = ⟨START, VERSION, LENGTH, c, f, m, l, (encodeFrame c f m l).ckmsb, (encodeFrame c f m l).cklsb, ENDMARK⟩ := rfl
    _ = specFrame c f m l := by rw [hhi, hlo]; rfl

/-- Settles O1: the 16-bit sum does not wrap, and NOT plus one negates it. -/
theorem checksumIsNegatedSixByteSum : Obligations.ChecksumIsNegatedSixByteSum := checksumOf_toNat

/-- Settles O2: the constants are the codec's own, and offsets 7 and 8 are the two bytes of R92's number. -/
theorem encodeBuildsTheSpecFrame : Obligations.EncodeBuildsTheSpecFrame := encodeFrame_eq_specFrame

/-- Settles O3: the checksum does not read offsets 7 and 8, where the frame carries it. -/
theorem encodedFrameCarriesItsChecksum : Obligations.EncodedFrameCarriesItsChecksum := fun c f m l =>
  ⟨(frameChecksum_encodeFrame c f m l).symm, frameWf_encodeFrame c f m l⟩

end Sys2Proof.Machine
end

section
/-! The frame parser (spec/41_frameparser.md): one equation per line of the transition table R116, runs of several bytes, and
the statements of that family. -/

namespace Sys2Proof.Machine
open Safety

/-! One received byte, by the parser position: each rule of R100 to R108, its comparison decided. -/

section
variable (k : Cfg) {b : Byte} {s : State}

theorem rxByte_awaitStart_marker (hp : s.pos = .awaitStart) :
    rxByte k START s = { s with rxf := { s.rxf with start := START }, pos := .awaitVersion } := by
  simp [rxByte, hp, rxAwaitStart]

theorem rxByte_awaitStart_other (hp : s.pos = .awaitStart) (hb : b ≠ START) : rxByte k b s = s := by
  simp [rxByte, hp, rxAwaitStart, hb]

theorem rxByte_awaitVersion_match (hp : s.pos = .awaitVersion) :
    rxByte k VERSION s = { s with rxf := { s.rxf with ver := VERSION }, pos := .awaitLength } := by
  simp [rxByte, hp, rxAwaitVersion]

theorem rxByte_awaitVersion_mismatch (hp : s.pos = .awaitVersion) (hb : b ≠ VERSION) :
    rxByte k b s = decodeFail .badVersion s := by
  simp [rxByte, hp, rxAwaitVersion, hb]

theorem rxByte_awaitLength_match (hp : s.pos = .awaitLength) :
    rxByte k LENGTH s = { s with rxf := { s.rxf with len := LENGTH }, pos := .awaitCommand } := by
  simp [rxByte, hp, rxAwaitLength]

theorem rxByte_awaitLength_mismatch (hp : s.pos = .awaitLength) (hb : b ≠ LENGTH) :
    rxByte k b s = decodeFail .badLength s := by
  simp [rxByte, hp, rxAwaitLength, hb]

theorem rxByte_awaitCommand (hp : s.pos = .awaitCommand) :
    rxByte k b s = { s with rxf := { s.rxf with cmd := b }, pos := .awaitFeedback } := by
  simp [rxByte, hp, rxAwaitCommand]

theorem rxByte_awaitFeedback (hp : s.pos = .awaitFeedback) :
    rxByte k b s = { s with rxf := { s.rxf with fb := b }, pos := .awaitParamMsb } := by
  simp [rxByte, hp, rxAwaitFeedback]

theorem rxByte_awaitParamMsb (hp : s.pos = .awaitParamMsb) :
    rxByte k b s = { s with rxf := { s.rxf with pmsb := b }, pos := .awaitParamLsb } := by
  simp [rxByte, hp, rxAwaitParamMsb]

theorem rxByte_awaitParamLsb (hp : s.pos = .awaitParamLsb) :
    rxByte k b s = { s with rxf := { s.rxf with plsb := b }, pos := .awaitChecksumMsb } := by
  simp [rxByte, hp, rxAwaitParamLsb]

theorem rxByte_awaitChecksumMsb (hp : s.pos = .awaitChecksumMsb) :
    rxByte k b s = { s with rxf := { s.rxf with ckmsb := b }, pos := .awaitChecksumLsb } := by
  simp [rxByte, hp, rxAwaitChecksumMsb]

/-- `checksumOf` does not read the byte just captured, so the comparison of R108 is known as the byte arrives (R90). -/
theorem rxByte_awaitChecksumLsb_match (hp : s.pos = .awaitChecksumLsb) (hck : joinBytes s.rxf.ckmsb b = checksumOf s.rxf) :
    rxByte k b s = { s with rxf := { s.rxf with cklsb := b }, pos := .awaitEnd } := by
  have hsum : checksumOf { s.rxf with cklsb := b } = checksumOf s.rxf := rfl
  simp [rxByte, hp, rxAwaitChecksumLsb, frameChecksum, hsum, hck]

theorem rxByte_awaitChecksumLsb_mismatch (hp : s.pos = .awaitChecksumLsb)
    (hck : joinBytes s.rxf.ckmsb b ≠ checksumOf s.rxf) :
    rxByte k b s = decodeFail .badChecksum { s with rxf := { s.rxf with cklsb := b } } := by
  have hsum : checksumOf { s.rxf with cklsb := b } = checksumOf s.rxf := rfl
  simp [rxByte, hp, rxAwaitChecksumLsb, frameChecksum, hsum, hck]

end

/-- The 16-bit comparison of R108 as a comparison of numbers (R92). -/
theorem joinBytes_eq_checksumOf_iff (hi lo : Byte) (F : Frame) :
    joinBytes hi lo = checksumOf F ↔ 256 * hi.toNat + lo.toNat = (0x10000 - sixSum F) % 0x10000 := by
  rw [← BitVec.toNat_inj, joinBytes_toNat, checksumOf_toNat]

/-- Settles O18: the two lines of R116 for position 0. -/
theorem awaitStartTakesOnlyTheMarker : Obligations.AwaitStartTakesOnlyTheMarker := by
  intro b s hp
  constructor
  · rintro rfl
    exact congrArg _ (rxByte_awaitStart_marker cfg hp)
  · intro hb
    exact congrArg _ (rxByte_awaitStart_other cfg hp hb)

/-- Settles O19: the two lines of R116 for position 1. -/
theorem awaitVersionChecksTheVersion : Obligations.AwaitVersionChecksTheVersion := by
  intro b s hp
  constructor
  · rintro rfl
    exact congrArg _ (rxByte_awaitVersion_match cfg hp)
  · intro hb
    exact congrArg _ (rxByte_awaitVersion_mismatch cfg hp hb)

/-- Settles O20: the two lines of R116 for position 2. -/
theorem awaitLengthChecksTheLength : Obligations.AwaitLengthChecksTheLength := by
  intro b s hp
  constructor
  · rintro rfl
    exact congrArg _ (rxByte_awaitLength_match cfg hp)
  · intro hb
    exact congrArg _ (rxByte_awaitLength_mismatch cfg hp hb)

/-- Settles O21: the line of R116 for positions 3 to 7, one rule after the other. -/
theorem middleBytesAreCapturedUnconditionally : Obligations.MiddleBytesAreCapturedUnconditionally := by
  intro b s
  exact ⟨fun hp => congrArg _ (rxByte_awaitCommand cfg hp), fun hp => congrArg _ (rxByte_awaitFeedback cfg hp),
    fun hp => congrArg _ (rxByte_awaitParamMsb cfg hp), fun hp => congrArg _ (rxByte_awaitParamLsb cfg hp),
    fun hp => congrArg _ (rxByte_awaitChecksumMsb cfg hp)⟩

/-- Settles O22: the comparison of words in R108 is the comparison of numbers in the statement. -/
theorem checksumIsJudgedAtTheLowByte : Obligations.ChecksumIsJudgedAtTheLowByte := by
  intro b s hp
  have hiff := joinBytes_eq_checksumOf_iff s.rxf.ckmsb b s.rxf
  exact ⟨fun hck => congrArg _ (rxByte_awaitChecksumLsb_match cfg hp (hiff.mpr hck)),
    fun hck => congrArg _ (rxByte_awaitChecksumLsb_mismatch cfg hp (mt hiff.mp hck))⟩

/-! Runs of several bytes. -/

/-- Bytes delivered one event each are a driving call (20_memory.md R42). -/
theorem deliver_eq_drive (bs : List Byte) (s : State) : deliver bs s = .next (drive cfg bs s) := by
  induction bs generalizing s with
  | nil => rfl
  | cons b bs ih => exact ih (rxByte cfg b s)

/-- A header and five further bytes lead from AwaitStart to AwaitChecksumLSB, whatever the five are (R100 to R107). -/
theorem drive_to_awaitChecksumLsb (k : Cfg) (c f m l kh : Byte) {s : State} (hp : s.pos = .awaitStart) :
    drive k [START, VERSION, LENGTH, c, f, m, l, kh] s =
      { s with
        rxf := ⟨START, VERSION, LENGTH, c, f, m, l, kh, s.rxf.cklsb, s.rxf.endm⟩
        pos := .awaitChecksumLsb } := by
  simp only [drive, rxByte_awaitStart_marker k hp, rxByte_awaitVersion_match, rxByte_awaitLength_match, rxByte_awaitCommand,
    rxByte_awaitFeedback, rxByte_awaitParamMsb, rxByte_awaitParamLsb, rxByte_awaitChecksumMsb]

/-- From `s` to `t` the parser failed with `kind`, put out that one notification and waits for a start marker (R115). -/
def Rejected (kind : FailKind) (s t : State) : Prop := t.pos = .awaitStart ∧ t.out = s.out ++ [.decodeFail kind]

/-- A wrong version is rejected at the second byte (R101). -/
theorem drive_rejected_badVersion (k : Cfg) {v : Byte} {s : State} (hp : s.pos = .awaitStart) (hv : v ≠ VERSION) :
    Rejected .badVersion s (drive k [START, v] s) := by
  simp only [drive]
  rw [rxByte_awaitStart_marker k hp, rxByte_awaitVersion_mismatch k rfl hv]
  exact ⟨rfl, rfl⟩

/-- A wrong length is rejected at the third byte (R102). -/
theorem drive_rejected_badLength (k : Cfg) {n : Byte} {s : State} (hp : s.pos = .awaitStart) (hn : n ≠ LENGTH) :
    Rejected .badLength s (drive k [START, VERSION, n] s) := by
  simp only [drive]
  rw [rxByte_awaitStart_marker k hp, rxByte_awaitVersion_match k rfl, rxByte_awaitLength_mismatch k rfl hn]
  exact ⟨rfl, rfl⟩

/-- A frame with the right header and a wrong checksum is rejected at the ninth byte (R108). -/
theorem drive_rejected_badChecksum (k : Cfg) {G : Frame} {s : State} (hp : s.pos = .awaitStart) (hstart : G.start = START)
    (hver : G.ver = VERSION) (hlen : G.len = LENGTH) (hck : frameChecksum G ≠ checksumOf G) :
    Rejected .badChecksum s (drive k ((frameBytes G).take 9) s) := by
  have hsplit : (frameBytes G).take 9 = [START, VERSION, LENGTH, G.cmd, G.fb, G.pmsb, G.plsb, G.ckmsb] ++ [G.cklsb] := by
    rw [← hstart, ← hver, ← hlen]
    rfl
  have hcaptured : checksumOf ⟨START, VERSION, LENGTH, G.cmd, G.fb, G.pmsb, G.plsb, G.ckmsb, s.rxf.cklsb, s.rxf.endm⟩
      = checksumOf G := checksumOf_congr hver.symm hlen.symm rfl rfl rfl rfl
  rw [hsplit, drive_append, drive_to_awaitChecksumLsb k _ _ _ _ _ hp, drive, drive,
    rxByte_awaitChecksumLsb_mismatch k rfl]
  · exact ⟨rfl, rfl⟩
  · exact hcaptured ▸ hck

/-- From `s` to `t` nothing but failures was put out, and no query was resolved (R115). -/
def OnlyDecodeFails (s t : State) : Prop :=
  (∃ o, t.out = s.out ++ o ∧ ∀ e ∈ o, ∃ kind, e = .decodeFail kind) ∧ t.pend = s.pend

theorem OnlyDecodeFails.of_out_eq {s t : State} (hout : t.out = s.out) (hpend : t.pend = s.pend) : OnlyDecodeFails s t :=
  ⟨⟨[], by simp [hout], by simp⟩, hpend⟩

theorem OnlyDecodeFails.of_fail {s t : State} {kind : FailKind} (hout : t.out = s.out ++ [.decodeFail kind])
    (hpend : t.pend = s.pend) : OnlyDecodeFails s t :=
  ⟨⟨[.decodeFail kind], hout, by simp⟩, hpend⟩

theorem OnlyDecodeFails.trans {s t u : State} (hst : OnlyDecodeFails s t) (htu : OnlyDecodeFails t u) :
    OnlyDecodeFails s u := by
  obtain ⟨⟨o, ho, hfails⟩, hpend⟩ := hst
  obtain ⟨⟨o', ho', hfails'⟩, hpend'⟩ := htu
  refine ⟨⟨o ++ o', by rw [ho', ho, List.append_assoc], fun e he => ?_⟩, hpend'.trans hpend⟩
  exact (List.mem_append.mp he).elim (hfails e) (hfails' e)

/-- Before AwaitEnd no byte emits a frame, and the parser advances by at most one position (R116). -/
theorem rxByte_before_awaitEnd (k : Cfg) (b : Byte) {s : State} (hne : s.pos ≠ .awaitEnd) :
    OnlyDecodeFails s (rxByte k b s) ∧ posOffset (rxByte k b s).pos ≤ posOffset s.pos + 1 := by
  cases hp : s.pos
  case awaitStart =>
    by_cases hb : b = START
    · rw [hb, rxByte_awaitStart_marker k hp]
      exact ⟨.of_out_eq rfl rfl, le_rfl⟩
    · rw [rxByte_awaitStart_other k hp hb, hp]
      exact ⟨.of_out_eq rfl rfl, Nat.zero_le _⟩
  case awaitVersion =>
    by_cases hb : b = VERSION
    · rw [hb, rxByte_awaitVersion_match k hp]
      exact ⟨.of_out_eq rfl rfl, le_rfl⟩
    · rw [rxByte_awaitVersion_mismatch k hp hb]
      exact ⟨.of_fail rfl rfl, Nat.zero_le _⟩
  case awaitLength =>
    by_cases hb : b = LENGTH
    · rw [hb, rxByte_awaitLength_match k hp]
      exact ⟨.of_out_eq rfl rfl, le_rfl⟩
    · rw [rxByte_awaitLength_mismatch k hp hb]
      exact ⟨.of_fail rfl rfl, Nat.zero_le _⟩
  case awaitCommand =>
    rw [rxByte_awaitCommand k hp]
    exact ⟨.of_out_eq rfl rfl, le_rfl⟩
  case awaitFeedback =>
    rw [rxByte_awaitFeedback k hp]
    exact ⟨.of_out_eq rfl rfl, le_rfl⟩
  case awaitParamMsb =>
    rw [rxByte_awaitParamMsb k hp]
    exact ⟨.of_out_eq rfl rfl, le_rfl⟩
  case awaitParamLsb =>
    rw [rxByte_awaitParamLsb k hp]
    exact ⟨.of_out_eq rfl rfl, le_rfl⟩
  case awaitChecksumMsb =>
    rw [rxByte_awaitChecksumMsb k hp]
    exact ⟨.of_out_eq rfl rfl, le_rfl⟩
  case awaitChecksumLsb =>
    by_cases hck : joinBytes s.rxf.ckmsb b = checksumOf s.rxf
    · rw [rxByte_awaitChecksumLsb_match k hp hck]
      exact ⟨.of_out_eq rfl rfl, le_rfl⟩
    · rw [rxByte_awaitChecksumLsb_mismatch k hp hck]
      exact ⟨.of_fail rfl rfl, Nat.zero_le _⟩
  case awaitEnd => exact absurd hp hne

/-- Bytes too few to reach past AwaitEnd emit no frame (R111). -/
theorem drive_onlyDecodeFails (k : Cfg) (bs : List Byte) {s : State} (hlen : posOffset s.pos + bs.length ≤ 9) :
    OnlyDecodeFails s (drive k bs s) := by
  induction bs generalizing s with
  | nil => exact .of_out_eq rfl rfl
  | cons b bs ih =>
    rw [List.length_cons] at hlen
    have hne : s.pos ≠ .awaitEnd := fun hp => by
      rw [hp, posOffset] at hlen
      omega
    obtain ⟨hstep, hpos⟩ := rxByte_before_awaitEnd k b hne
    exact hstep.trans (ih (by omega))

/-- A return to AwaitStart splits ten bytes into two runs, each too short to emit a frame (R111). -/
theorem drive_onlyDecodeFails_of_return (k : Cfg) (bs : List Byte) {s : State} {n : Nat} (hp : s.pos = .awaitStart)
    (hback : (drive k (bs.take n) s).pos = .awaitStart) (hfew : n ≤ 9) (hrest : bs.length ≤ n + 9) :
    OnlyDecodeFails s (drive k bs s) := by
  have hfirst : OnlyDecodeFails s (drive k (bs.take n) s) := by
    apply drive_onlyDecodeFails
    rw [hp, posOffset, List.length_take]
    omega
  have hlast : OnlyDecodeFails (drive k (bs.take n) s) (drive k (bs.drop n) (drive k (bs.take n) s)) := by
    apply drive_onlyDecodeFails
    rw [hback, posOffset, List.length_drop]
    omega
  rw [← drive_append, List.take_append_drop] at hlast
  exact hfirst.trans hlast

/-! One bit flipped (R95, R114). -/

/-- Flipping a bit of a byte changes it. -/
theorem xor_bit_ne (b : Byte) {j : Nat} (hj : j < 8) : b ^^^ ((1 : Byte) <<< j) ≠ b := by
  have hbit : (1 : Byte) <<< j ≠ 0 := by
    interval_cases j <;> decide
  intro h
  exact hbit (by simpa using h)

/-- A changed sum of offsets 1 to 6 under the same checksum bytes is a wrong checksum (R95). -/
theorem frameChecksum_ne_of_sixSum_ne {F G : Frame} (hF : frameChecksum F = checksumOf F)
    (hck : frameChecksum G = frameChecksum F) (hsum : sixSum G ≠ sixSum F) : frameChecksum G ≠ checksumOf G := by
  intro hG
  have heq : (checksumOf G).toNat = (checksumOf F).toNat := by rw [← hG, hck, hF]
  rw [checksumOf_toNat, checksumOf_toNat] at heq
  have hleF := sixSum_le F
  have hleG := sixSum_le G
  omega

/-- A flip at offsets 3 to 6 gives a frame with the same header and checksum bytes and another sum. -/
theorem flipBit_middle (W : Frame) {k j : Nat} (h3 : 3 ≤ k) (h6 : k ≤ 6) (hj : j < 8) :
    ∃ G : Frame, flipBit W k j = frameBytes G ∧ G.start = W.start ∧ G.ver = W.ver ∧ G.len = W.len
      ∧ frameChecksum G = frameChecksum W ∧ sixSum G ≠ sixSum W := by
  have hflip : ∀ b : Byte, (b ^^^ ((1 : Byte) <<< j)).toNat ≠ b.toNat :=
    fun b => BitVec.toNat_ne_iff_ne.mpr (xor_bit_ne b hj)
  obtain rfl | rfl | rfl | rfl : k = 3 ∨ k = 4 ∨ k = 5 ∨ k = 6 := by omega
  · refine ⟨{ W with cmd := W.cmd ^^^ ((1 : Byte) <<< j) }, rfl, rfl, rfl, rfl, rfl, ?_⟩
    simpa [sixSum] using hflip W.cmd
  · refine ⟨{ W with fb := W.fb ^^^ ((1 : Byte) <<< j) }, rfl, rfl, rfl, rfl, rfl, ?_⟩
    simpa [sixSum] using hflip W.fb
  · refine ⟨{ W with pmsb := W.pmsb ^^^ ((1 : Byte) <<< j) }, rfl, rfl, rfl, rfl, rfl, ?_⟩
    simpa [sixSum] using hflip W.pmsb
  · refine ⟨{ W with plsb := W.plsb ^^^ ((1 : Byte) <<< j) }, rfl, rfl, rfl, rfl, rfl, ?_⟩
    simpa [sixSum] using hflip W.plsb

/-- How many bytes of a frame with a flip at offset `k` are taken when the parser rejects it (R114). -/
def rejectedAfter (k : Nat) : Nat := if k = 1 then 2 else if k = 2 then 3 else 9

/-- The check that a flip at offset `k` fails (R114). -/
def rejectedAs (k : Nat) : FailKind := if k = 1 then .badVersion else if k = 2 then .badLength else .badChecksum

/-- Two bytes at least and nine at most: neither the bytes up to the rejection nor those after it are a whole frame. -/
theorem rejectedAfter_bounds (k : Nat) : 2 ≤ rejectedAfter k ∧ rejectedAfter k ≤ 9 := by
  unfold rejectedAfter
  split_ifs <;> decide

/-- A well-formed frame with one bit of bytes 1 to 6 flipped is rejected, at the byte and as the kind R114 names. -/
theorem drive_flipBit_rejected (K : Cfg) {W : Frame} {s : State} {k j : Nat} (hW : frameWf W = true)
    (hp : s.pos = .awaitStart) (h1 : 1 ≤ k) (h6 : k ≤ 6) (hj : j < 8) :
    Rejected (rejectedAs k) s (drive K ((flipBit W k j).take (rejectedAfter k)) s) := by
  obtain ⟨hstart, hver, hlen, -, hck⟩ := (frameWf_iff W).mp hW
  obtain rfl | rfl | h3 : k = 1 ∨ k = 2 ∨ 3 ≤ k := by omega
  · have hbytes : (flipBit W 1 j).take 2 = [START, VERSION ^^^ ((1 : Byte) <<< j)] := by
      rw [← hstart, ← hver]
      rfl
    exact hbytes ▸ drive_rejected_badVersion K hp (xor_bit_ne VERSION hj)
  · have hbytes : (flipBit W 2 j).take 3 = [START, VERSION, LENGTH ^^^ ((1 : Byte) <<< j)] := by
      rw [← hstart, ← hver, ← hlen]
      rfl
    exact hbytes ▸ drive_rejected_badLength K hp (xor_bit_ne LENGTH hj)
  · obtain ⟨G, hbytes, hGstart, hGver, hGlen, hGck, hGsum⟩ := flipBit_middle W h3 h6 hj
    have hafter : rejectedAfter k = 9 := by simp [rejectedAfter, show k ≠ 1 by omega, show k ≠ 2 by omega]
    have hkind : rejectedAs k = .badChecksum := by simp [rejectedAs, show k ≠ 1 by omega, show k ≠ 2 by omega]
    rw [hafter, hkind, hbytes]
    exact drive_rejected_badChecksum K hp (hGstart.trans hstart) (hGver.trans hver) (hGlen.trans hlen)
      (frameChecksum_ne_of_sixSum_ne hck hGck hGsum)

/-- Settles O30: the flip is rejected where R114 says, and neither the bytes up to there nor those left, at most eight
from AwaitStart, are enough for a frame to be emitted. -/
theorem singleBitFlipIsRejected : Obligations.SingleBitFlipIsRejected := by
  intro W s k j hW hp h1 h6 hj
  have hrejected := drive_flipBit_rejected cfg hW hp h1 h6 hj
  refine ⟨⟨_, deliver_eq_drive _ s, hrejected⟩, ?_⟩
  obtain ⟨hmin, hmax⟩ := rejectedAfter_bounds k
  have hten : (flipBit W k j).length = 10 := by simp [flipBit, FRAME_BYTES]
  obtain ⟨⟨o, hout, hfails⟩, hpend⟩ :=
    drive_onlyDecodeFails_of_return cfg (flipBit W k j) hp hrejected.1 hmax (by omega)
  obtain ⟨hexpc, htstart, htmo, -⟩ := drive_frame cfg (flipBit W k j) s
  exact ⟨_, o, deliver_eq_drive _ s, hout, hfails, hpend, hexpc, htstart, htmo⟩

end Sys2Proof.Machine
end

section
/-! The catalog dispatch (spec/42_catalog_dispatch.md): what an `Issue` event does, by the validity and the class of its
operands, and the statements of that family. -/

namespace Sys2Proof.Machine
open Safety

/-- A no-parameter action has no validity rule (R157). -/
@[simp] theorem actionValid_none (k : Cfg) (a : Action) : actionValid k a .none = true := by
  cases a <;> rfl

/-- Every action but PLAY takes its code from the configuration (R69). -/
theorem actionCode_of_ne_play (k : Cfg) {a : Action} (ha : a ≠ .play) : actionCode k a = k.cat a := if_neg ha

/-- A word of at most eight bits has a zero high byte. -/
theorem hiByte_eq_zero {v : Word} (hv : v.toNat < 256) : hiByte v = 0x00 := by
  rw [hiByte_eq_ofNat, Nat.div_eq_of_lt hv]
  rfl

/-- The transmit unit sends the frame as the spec writes it out, and writes no register (20_memory.md R44; R92). -/
theorem sendFrame_encodeFrame (c m l : Byte) (s : State) :
    sendFrame (encodeFrame c cfg.fbDefault m l) s = afterSend c m l s := by
  rw [encodeFrame_eq_specFrame]
  rfl

section
variable {i : Instr} {a : Action} {args : Args} {v bound : Word}

/-- An instruction that is an `Issue` event runs that `Issue` and nothing else (R124). -/
theorem exec_of_issueOf (h : issueOf i = some (a, args)) (s : State) : exec i s = .next (issue cfg a args s) := by
  obtain ⟨a', args', h', hexec⟩ | ⟨q, m, l, t, hask, -⟩ | ⟨c, f, m, l, rfl, -⟩ | ⟨f, m, l, rfl, -⟩ | ⟨b, rfl, -⟩
    | ⟨rfl, -⟩ | ⟨rfl, -⟩ := exec_cases i s
  case inl =>
    obtain ⟨rfl, rfl⟩ : a' = a ∧ args' = args := by simpa [h'] using h
    exact hexec
  case inr.inl =>
    rw [askOf_eq_none_of_issueOf cfg h] at hask
    cases hask
  all_goals cases h

/-- Valid operands: one frame is sent and nothing else changes (R124). -/
theorem exec_of_valid (h : issueOf i = some (a, args)) (hvalid : actionValid cfg a args = true) (s : State) :
    exec i s = .next (afterSend (actionCode cfg a) (params cfg a args).1 (params cfg a args).2 s) := by
  rw [exec_of_issueOf h, issue_eq, if_pos hvalid, sendFrame_encodeFrame]

/-- Invalid operands: the action is a silent no-op (R122). -/
theorem exec_of_invalid (h : issueOf i = some (a, args)) (hvalid : ¬ actionValid cfg a args = true) (s : State) :
    exec i s = .next s := by
  rw [exec_of_issueOf h, issue_eq, if_neg hvalid]

/-- Class NONE: a zero and the sentinel are sent, always (R68). -/
theorem exec_of_none (h : issueOf i = some (a, .none)) (s : State) :
    exec i s = .next (afterSend (cfg.cat a) 0x00 (if cfg.sent a then 1 else 0) s) := by
  have hclass : ParamClass.none = actionClass a := issueOf_class h
  have ha : a ≠ .play := by
    rintro rfl
    cases hclass
  rw [exec_of_valid h (actionValid_none cfg a), actionCode_of_ne_play cfg ha]
  rfl

/-- Class VAL16: a valid operand is sent, its high byte first (R65). -/
theorem exec_of_val16 (a : Action) (h : issueOf i = some (a, .val16 v)) (hvalid : actionValid cfg a (.val16 v) = true)
    (s : State) :
    exec i s = .next (afterSend (actionCode cfg a) ((v >>> 8).setWidth 8) (v.setWidth 8) s) := by
  rw [exec_of_valid h hvalid, ← hiByte_eq_shift, ← loByte_eq_setWidth]
  rfl

/-- Class VAL16 with an upper bound that fits a byte: an operand within it is sent behind a zero byte (R121). -/
theorem exec_of_le_max (a : Action) (h : issueOf i = some (a, .val16 v))
    (hrule : actionValid cfg a (.val16 v) = decide (v ≤ bound)) (hbound : bound.toNat < 256)
    (hv : v.toNat ≤ bound.toNat) (s : State) :
    exec i s = .next (afterSend (actionCode cfg a) 0x00 (v.setWidth 8) s) := by
  have hvalid : actionValid cfg a (.val16 v) = true := hrule.trans (decide_eq_true hv)
  rw [exec_of_val16 a h hvalid, ← hiByte_eq_shift, hiByte_eq_zero (hv.trans_lt hbound)]

/-- Class VAL16 with an upper bound: the whole operand is compared, and one above the bound does nothing (R121, R122). -/
theorem exec_of_max_lt (a : Action) (h : issueOf i = some (a, .val16 v))
    (hrule : actionValid cfg a (.val16 v) = decide (v ≤ bound)) (hv : bound.toNat < v.toNat) (s : State) :
    exec i s = .next s := by
  have hnot : ¬ v ≤ bound := Nat.not_le.mpr hv
  exact exec_of_invalid h (by simp [hrule, hnot]) s

end

/-- Settles O35: ten actions of class NONE. -/
theorem transportAndPowerActionsSendOneFrame : Obligations.TransportAndPowerActionsSendOneFrame := by
  intro s
  and_intros <;> exact exec_of_none rfl s

/-- Settles O36: the other eleven actions of class NONE. -/
theorem modeActionsWithoutOperandSendOneFrame : Obligations.ModeActionsWithoutOperandSendOneFrame := by
  intro s
  and_intros <;> exact exec_of_none rfl s

/-- Settles O37: PLAY is of class VAL16 without a validity rule, and its code is the fixed one. -/
theorem playSendsTheTrackNumber : Obligations.PlaySendsTheTrackNumber := fun _ s => exec_of_val16 .play rfl rfl s

/-- Settles O38: three actions of class VAL16 without a validity rule. -/
theorem uncheckedWordActionsSendTheirOperand : Obligations.UncheckedWordActionsSendTheirOperand := fun _ s =>
  ⟨exec_of_val16 .loopmode rfl rfl s, exec_of_val16 .advert rfl rfl s, exec_of_val16 .repfolderStart rfl rfl s⟩

/-- Settles O39: the bounds VOL_MAX, EQ_MAX and GAIN_MAX, each from both sides. -/
theorem rangeCheckedActionsSendOrDoNothing : Obligations.RangeCheckedActionsSendOrDoNothing := fun _ s =>
  ⟨fun hv => exec_of_le_max (bound := VOL_MAX) .volset rfl rfl (by decide) hv s,
    fun hv => exec_of_max_lt (bound := VOL_MAX) .volset rfl rfl hv s,
    fun hv => exec_of_le_max (bound := EQ_MAX) .eq rfl rfl (by decide) hv s,
    fun hv => exec_of_max_lt (bound := EQ_MAX) .eq rfl rfl hv s,
    fun hv => exec_of_le_max (bound := GAIN_MAX) .gain rfl rfl (by decide) hv s,
    fun hv => exec_of_max_lt (bound := GAIN_MAX) .gain rfl rfl hv s⟩

/-- Settles O40: the validity rule of SOURCE is membership in the open set. -/
theorem sourceSendsMembersOfTheSet : Obligations.SourceSendsMembersOfTheSet := by
  intro v s
  have hrule : actionValid cfg .source (.val16 v) = true ↔ v ∈ cfg.srcSet := List.contains_iff_mem
  split
  case isTrue hmem => exact exec_of_val16 .source rfl (hrule.mpr hmem) s
  case isFalse hmem => exact exec_of_invalid rfl (mt hrule.mp hmem) s

/-- Settles O41: FOLDER is of class BYTES2, without a validity rule. -/
theorem folderSendsTwoByteFields : Obligations.FolderSendsTwoByteFields := fun f t s =>
  exec_of_valid (a := .folder) (args := .bytes2 f t) rfl rfl s

/-- Settles O42: LFOLDER is of class PACK_LF, without a validity rule, and the packed word as a number is the statement's. -/
theorem largeFolderPacksFourAndTwelveBits : Obligations.LargeFolderPacksFourAndTwelveBits := by
  intro f t s
  rw [← packLf_toNat, ← hiByte_eq_ofNat, ← loByte_eq_ofNat]
  exact exec_of_valid (a := .lfolder) (args := .packLf f t) rfl rfl s

/-- Settles O54: the frame, or its absence, is a matter of the operands and the configuration, not of the state. -/
theorem controlActionsAreFireAndForget : Obligations.ControlActionsAreFireAndForget := by
  intro i s s' hissue
  obtain ⟨⟨a, args⟩, h⟩ := Option.isSome_iff_exists.mp hissue
  by_cases hvalid : actionValid cfg a args = true
  · exact ⟨_, _, by simp, exec_of_valid h hvalid s, exec_of_valid h hvalid s'⟩
  · refine ⟨[], [], by simp, ?_, ?_⟩
    · simpa using exec_of_invalid h hvalid s
    · simpa using exec_of_invalid h hvalid s'

end Sys2Proof.Machine
end

section
/-! The query correlator (spec/43_query_correlator.md): `Ask` and its wrappers, the end marker of a frame, by what routing does
with the frame, the tick, and the statements of that family. -/

namespace Sys2Proof.Machine
open Safety

theorem exec_rxbyte (b : Byte) (s : State) : exec (.rxbyte b) s = .next (rxByte cfg b s) := rfl

theorem exec_tick (s : State) : exec .tick s = .next (tickEvent cfg s) := rfl

/-! `Ask` (R170, R171). -/

section
variable {i : Instr} {q m l : Byte} {t : Nat} {s : State}

/-- An instruction that is an `Ask` event runs that `Ask` and nothing else (R181 to R189). -/
theorem exec_of_askOf (h : askOf cfg i = some (q, m, l, t)) (s : State) : exec i s = .next (ask cfg q m l t s) := by
  obtain ⟨a, args, hissue, -⟩ | ⟨q', m', l', t', h', hexec⟩ | ⟨c, f, m, l, rfl, -⟩ | ⟨f, m, l, rfl, -⟩ | ⟨b, rfl, -⟩
    | ⟨rfl, -⟩ | ⟨rfl, -⟩ := exec_cases i s
  case inl =>
    rw [askOf_eq_none_of_issueOf cfg hissue] at h
    cases h
  case inr.inl =>
    obtain ⟨rfl, rfl, rfl, rfl⟩ : q' = q ∧ m' = m ∧ l' = l ∧ t' = t := by simpa [h'] using h
    exact hexec
  all_goals cases h

/-- No query pending: the frame is sent as the spec writes it out, and a `uTW` timeout is kept whole (R171). -/
theorem exec_of_askOf_idle (h : askOf cfg i = some (q, m, l, t)) (ht : t < 2 ^ cfg.tw) (hpend : s.pend = false) :
    exec i s = .next (afterAsk q m l t s) := by
  rw [exec_of_askOf h, ask_of_idle cfg q m l t hpend, encodeFrame_eq_specFrame, truncTicks_of_lt ht]
  rfl

/-- A query pending: Busy, and nothing else (R170). -/
theorem exec_of_askOf_pending (h : askOf cfg i = some (q, m, l, t)) (hpend : s.pend = true) :
    exec i s = .next (afterOutput [.qresult .busy] s) := by
  rw [exec_of_askOf h, ask_of_pending cfg q m l t hpend]
  rfl

end

/-! The end marker, and the routing of the frame it completes (R110, R173 to R176). -/

section
variable (k : Cfg) {b : Byte} {F : Frame} {s : State}

theorem rxByte_awaitEnd_match (hp : s.pos = .awaitEnd) :
    rxByte k ENDMARK s
      = route k { s.rxf with endm := ENDMARK } { s with rxf := { s.rxf with endm := ENDMARK }, pos := .awaitStart } := by
  simp [rxByte, hp, rxAwaitEnd]

theorem rxByte_awaitEnd_mismatch (hp : s.pos = .awaitEnd) (hb : b ≠ ENDMARK) :
    rxByte k b s = decodeFail .badEnd s := by
  simp [rxByte, hp, rxAwaitEnd, hb]

/-- An error report resolves a pending query, whatever code it expects (R174). -/
theorem route_of_error (hpend : s.pend = true) (herr : F.cmd = ERR_CODE) :
    route k F s = resolve (.deviceError F.plsb (describe k F.plsb)) s := by
  obtain ⟨-, -, h⟩ | ⟨-, hne, -⟩ | ⟨hpass, -⟩ := route_cases k F s
  · exact h
  · exact absurd herr hne
  · simp [hpend, herr] at hpass

/-- A frame with the expected code resolves a pending query with its value (R175). -/
theorem route_of_reply (hpend : s.pend = true) (herr : F.cmd ≠ ERR_CODE) (hcode : F.cmd = s.expc) :
    route k F s = resolve (.value (frameValue F)) s := by
  obtain ⟨-, heq, -⟩ | ⟨-, -, -, h⟩ | ⟨hpass, -⟩ := route_cases k F s
  · exact absurd heq herr
  · exact h
  · simp [hpend, hcode] at hpass

/-- Every other frame goes to the sink (R176). -/
theorem route_of_other (hpass : s.pend = false ∨ (F.cmd ≠ ERR_CODE ∧ F.cmd ≠ s.expc)) :
    route k F s = output (.sink F (sinkCause k F)) s := by
  obtain ⟨hpend, heq, -⟩ | ⟨hpend, -, heq, -⟩ | ⟨-, h⟩ := route_cases k F s
  · simp [hpend, heq] at hpass
  · simp [hpend, heq] at hpass
  · exact h

/-- Routing puts out a result or hands the frame on, never a framing error (R173). -/
theorem route_out_ne_decodeFail (kind : FailKind) : (route k F s).out ≠ s.out ++ [.decodeFail kind] := by
  obtain ⟨-, -, h⟩ | ⟨-, -, -, h⟩ | ⟨-, h⟩ := route_cases k F s <;> simp [h]

end

/-- The value of a frame as a number (R175). -/
theorem frameValue_eq_ofNat (F : Frame) : frameValue F = BitVec.ofNat 16 (256 * F.pmsb.toNat + F.plsb.toNat) := by
  rw [← joinBytes_toNat, BitVec.ofNat_toNat, BitVec.setWidth_eq]
  rfl

/-! A framing error and the query (R177). -/

/-- The parser position, `RXF` and the byte alone decide a framing error and the bytes it leaves in `RXF`: what is so from
one state is so from every state that agrees with it on these (R115, R177). -/
theorem rxByte_decodeFail_inv {k : Cfg} {b : Byte} {s : State} {kind : FailKind}
    (h : (rxByte k b s).out = s.out ++ [.decodeFail kind]) :
    ∃ F : Frame, ∀ s' : State, s'.pos = s.pos → s'.rxf = s.rxf →
      rxByte k b s' = decodeFail kind { s' with rxf := F } := by
  cases hp : s.pos
  case awaitVersion =>
    by_cases hb : b = VERSION
    · simp [hb, rxByte_awaitVersion_match k hp] at h
    · obtain rfl : .badVersion = kind := by simpa [rxByte_awaitVersion_mismatch k hp hb] using h
      exact ⟨s.rxf, fun s' hp' hrxf => hrxf ▸ rxByte_awaitVersion_mismatch k hp' hb⟩
  case awaitLength =>
    by_cases hb : b = LENGTH
    · simp [hb, rxByte_awaitLength_match k hp] at h
    · obtain rfl : .badLength = kind := by simpa [rxByte_awaitLength_mismatch k hp hb] using h
      exact ⟨s.rxf, fun s' hp' hrxf => hrxf ▸ rxByte_awaitLength_mismatch k hp' hb⟩
  case awaitChecksumLsb =>
    by_cases hck : joinBytes s.rxf.ckmsb b = checksumOf s.rxf
    · simp [rxByte_awaitChecksumLsb_match k hp hck] at h
    · obtain rfl : .badChecksum = kind := by simpa [rxByte_awaitChecksumLsb_mismatch k hp hck] using h
      refine ⟨{ s.rxf with cklsb := b }, fun s' hp' hrxf => ?_⟩
      rw [← hrxf] at hck ⊢
      exact rxByte_awaitChecksumLsb_mismatch k hp' hck
  case awaitEnd =>
    by_cases hb : b = ENDMARK
    · rw [hb, rxByte_awaitEnd_match k hp] at h
      exact absurd h (route_out_ne_decodeFail k kind)
    · obtain rfl : .badEnd = kind := by simpa [rxByte_awaitEnd_mismatch k hp hb] using h
      exact ⟨s.rxf, fun s' hp' hrxf => hrxf ▸ rxByte_awaitEnd_mismatch k hp' hb⟩
  case awaitStart =>
    by_cases hb : b = START
    · simp [hb, rxByte_awaitStart_marker k hp] at h
    · simp [rxByte_awaitStart_other k hp hb] at h
  case awaitCommand => simp [rxByte_awaitCommand k hp] at h
  case awaitFeedback => simp [rxByte_awaitFeedback k hp] at h
  case awaitParamMsb => simp [rxByte_awaitParamMsb k hp] at h
  case awaitParamLsb => simp [rxByte_awaitParamLsb k hp] at h
  case awaitChecksumMsb => simp [rxByte_awaitChecksumMsb k hp] at h

/-! The tick (R178, R179). -/

/-- A tick, and so a Timeout, raises no framing error and leaves the parser as it is (R177). -/
theorem tickEvent_parser (k : Cfg) (s : State) :
    (∀ kind, (tickEvent k s).out ≠ s.out ++ [.decodeFail kind]) ∧ (tickEvent k s).pos = s.pos
      ∧ (tickEvent k s).rxf = s.rxf := by
  obtain ⟨-, -, h⟩ | ⟨-, h⟩ := tickEvent_cases k s <;> simp [h]

/-- The truncation of the counter drops out of the elapsed ticks, so the deadline is a comparison of integers (R178). -/
theorem deadline_iff (k : Cfg) (now tstart tmo : Nat) :
    tmo ≤ elapsedTicks k (truncTicks k (now + 1)) tstart ↔ (tmo : Int) ≤ ((now : Int) + 1 - tstart) % 2 ^ k.tw := by
  have helapsed : (elapsedTicks k (truncTicks k (now + 1)) tstart : Int) = ((now : Int) + 1 - tstart) % 2 ^ k.tw := by
    rw [elapsedTicks_eq, truncTicks]
    push_cast
    exact Int.emod_sub_emod ..
  rw [← helapsed, Int.ofNat_le]

/-- Settles O34: the failing byte's effect on the parser is read off from `pos` and `RXF`, and a framing error writes
nothing else. -/
theorem decodeFailureIsTransparentToTheQuery : Obligations.DecodeFailureIsTransparentToTheQuery := by
  refine ⟨fun b s t kind hexec hout => ?_, fun b s s' t kind hpos hrxf hexec hout => ?_, fun s t hexec => ?_⟩
  · obtain rfl : rxByte cfg b s = t := Host.Outcome.next.inj hexec
    obtain ⟨F, hfail⟩ := rxByte_decodeFail_inv hout
    simp [hfail s rfl rfl]
  · obtain rfl : rxByte cfg b s = t := Host.Outcome.next.inj hexec
    obtain ⟨F, hfail⟩ := rxByte_decodeFail_inv hout
    refine ⟨rxByte cfg b s', exec_rxbyte b s', ?_⟩
    simp [hfail s rfl rfl, hfail s' hpos hrxf]
  · obtain rfl : tickEvent cfg s = t := Host.Outcome.next.inj hexec
    exact tickEvent_parser cfg s

/-- Settles O43: ASK with no query pending. -/
theorem acceptedAskSendsAndRegisters : Obligations.AcceptedAskSendsAndRegisters :=
  fun _ _ _ _ _ ht hpend => exec_of_askOf_idle rfl ht hpend

/-- Settles O44: seven instructions that are `Ask` events; the folder's two bytes are the halves of the word. -/
theorem wrappersSendTheirQuery : Obligations.WrappersSendTheirQuery := by
  intro t f s ht
  rw [← hiByte_eq_shift, ← loByte_eq_setWidth]
  constructor
  · intro hpend
    and_intros <;> exact exec_of_askOf_idle rfl ht hpend
  · intro hpend
    and_intros <;> exact exec_of_askOf_pending rfl hpend

/-- Settles O24: the end marker completes an error report, and routing takes its first branch. -/
theorem errorFrameResolvesThePendingQuery : Obligations.ErrorFrameResolvesThePendingQuery := by
  intro s hp hpend herr
  exact congrArg _ ((rxByte_awaitEnd_match cfg hp).trans (route_of_error cfg hpend herr))

/-- Settles O25: the end marker completes a frame with the expected code, and routing takes its second branch. -/
theorem replyResolvesThePendingQuery : Obligations.ReplyResolvesThePendingQuery := by
  intro s hp hpend herr hcode
  have hvalue := frameValue_eq_ofNat { s.rxf with endm := ENDMARK }
  rw [exec_rxbyte, ← hvalue]
  exact congrArg _ ((rxByte_awaitEnd_match cfg hp).trans (route_of_reply cfg hpend herr hcode))

/-- Settles O26: the end marker completes a frame that no query consumes, and routing takes its last branch. -/
theorem otherFramesPassToTheSink : Obligations.OtherFramesPassToTheSink := by
  intro s hp hpass
  exact congrArg _ ((rxByte_awaitEnd_match cfg hp).trans (route_of_other cfg hpass))

/-- Settles O46: ASK with a query pending; the timeout is not looked at. -/
theorem secondAskIsBusy : Obligations.SecondAskIsBusy :=
  fun _ _ _ _ _ _ hpend => exec_of_askOf_pending rfl hpend

/-- Settles O47: the two branches of a tick, the deadline as the statement writes it. -/
theorem tickCountsAndTimesOut : Obligations.TickCountsAndTimesOut := by
  intro s
  rw [← deadline_iff, exec_tick]
  obtain ⟨hpend, hdue, h⟩ | ⟨hnot, h⟩ := tickEvent_cases cfg s
  · exact ⟨fun _ => congrArg _ h, fun hnot => absurd ⟨hpend, hdue⟩ hnot⟩
  · exact ⟨fun hdue => absurd hdue hnot, fun _ => congrArg _ h⟩

end Sys2Proof.Machine
end

section
/-! PROOFS of the error translator (spec/44_error_translator.md). The open table of causes is taken as it stands where it is
legal and replaced by the table of R202 where it is not, so either way the table in force meets R201. -/

namespace Sys2Proof.Machine

/-- The check on a cause table, read as the three constraints (a), (b), (c) of R201. -/
theorem errtabLegal_iff (f : Byte → Cause) :
    errtabLegal f = true ↔
      f 0x05 = .trackOutOfRange ∧ (∀ n m : Byte, f n = .unknown m → m = n) ∧ ∀ c ∈ namedCauses, ∃ n : Byte, f n = c := by
  have mem_codes (n : Byte) : n ∈ (List.range 256).map (BitVec.ofNat 8) :=
    List.mem_map.2 ⟨n.toNat, List.mem_range.2 n.isLt, (BitVec.ofNat_toNat 8 n).trans n.setWidth_eq⟩
  simp only [errtabLegal, Bool.and_eq_true, decide_eq_true_eq, List.all_eq_true, List.any_eq_true, and_assoc]
  refine and_congr_right fun _ => and_congr ⟨fun h n m hm => ?_, fun h n _ => ?_⟩ ?_
  · simpa [hm] using h n (mem_codes n)
  · split
    next m hm => exact decide_eq_true (h n m hm)
    next => rfl
  · exact forall₂_congr fun c _ => ⟨fun ⟨n, _, hn⟩ => ⟨n, hn⟩, fun ⟨n, hn⟩ => ⟨n, mem_codes n, hn⟩⟩

/-- The table in force: the entry of 0x05 that `Config.errtab` writes first is the one both candidates have. -/
theorem errtab_eq :
    Config.errtab = if errtabLegal Config.openErrtab then Config.openErrtab else errtabInstance := by
  funext n
  by_cases hn : n = 0x05
  · subst hn
    split
    case isTrue hlegal => exact ((errtabLegal_iff _).1 hlegal).1.symm
    case isFalse => rfl
  · rw [Config.errtab, if_neg hn, ite_apply]

/-- Whatever the open table is, the table in force is legal. -/
theorem errtab_legal : errtabLegal Config.errtab = true := by
  rw [errtab_eq]
  split
  case isTrue hlegal => exact hlegal
  case isFalse => exact errtabInstance_legal

/-- Settles O8: `describe cfg` is the table in force, which is legal for every value of the open table. -/
theorem causeTableMeetsItsConstraints : Obligations.CauseTableMeetsItsConstraints :=
  (errtabLegal_iff (describe cfg)).1 errtab_legal

end Sys2Proof.Machine
end

section
/-! The resolution of a query (spec/60_exceptions.md R226): outside `Ask` and reset, a QResult is put out only where `pend` falls
from 1 to 0, and nothing sets `pend`. -/

namespace Sys2Proof.Machine
open Safety

/-- From `s` to `t` a pending query was resolved, or `pend` stayed as it is and no QResult was put out. -/
def QResultOnlyOnResolution (s t : State) : Prop :=
  ∃ o, t.out = s.out ++ o ∧ ((s.pend = true ∧ t.pend = false) ∨ (t.pend = s.pend ∧ ∀ r, .qresult r ∉ o))

namespace QResultOnlyOnResolution
variable {s t u : State}

theorem of_resolve {r : Res} (hout : t.out = s.out ++ [.qresult r]) (hbefore : s.pend = true) (hafter : t.pend = false) :
    QResultOnlyOnResolution s t :=
  ⟨[.qresult r], hout, .inl ⟨hbefore, hafter⟩⟩

theorem of_no_result {o : List OutEvent} (hout : t.out = s.out ++ o) (hpend : t.pend = s.pend)
    (hnone : ∀ r, .qresult r ∉ o) : QResultOnlyOnResolution s t :=
  ⟨o, hout, .inr ⟨hpend, hnone⟩⟩

theorem of_onlyDecodeFails (h : OnlyDecodeFails s t) : QResultOnlyOnResolution s t := by
  obtain ⟨⟨o, hout, hfails⟩, hpend⟩ := h
  refine of_no_result hout hpend fun r hr => ?_
  obtain ⟨kind, hkind⟩ := hfails _ hr
  cases hkind

theorem refl (s : State) : QResultOnlyOnResolution s s := of_onlyDecodeFails (.of_out_eq rfl rfl)

/-- A query once resolved is not resolved again, for nothing between sets `pend`. -/
theorem trans (hst : QResultOnlyOnResolution s t) (htu : QResultOnlyOnResolution t u) : QResultOnlyOnResolution s u := by
  obtain ⟨o, ho, hfirst⟩ := hst
  obtain ⟨o', ho', hsecond⟩ := htu
  refine ⟨o ++ o', by rw [ho', ho, List.append_assoc], ?_⟩
  obtain ⟨hs, ht⟩ | ⟨hts, hnone⟩ := hfirst <;> obtain ⟨ht', hu⟩ | ⟨hut, hnone'⟩ := hsecond
  · simp [ht] at ht'
  · exact .inl ⟨hs, hut.trans ht⟩
  · exact .inl ⟨hts ▸ ht', hu⟩
  · exact .inr ⟨hut.trans hts, fun r hr => (List.mem_append.mp hr).elim (hnone r) (hnone' r)⟩

/-- Where a QResult is the one output, the query was pending and is no more. -/
theorem pend_of_out {r : Res} (h : QResultOnlyOnResolution s t) (hout : t.out = s.out ++ [.qresult r]) :
    s.pend = true ∧ t.pend = false := by
  obtain ⟨o, ho, hresolved | ⟨-, hnone⟩⟩ := h
  · exact hresolved
  · obtain rfl : o = [.qresult r] := List.append_cancel_left (ho.symm.trans hout)
    exact absurd (List.mem_singleton.mpr rfl) (hnone r)

end QResultOnlyOnResolution

theorem route_resolution (k : Cfg) (F : Frame) (s : State) : QResultOnlyOnResolution s (route k F s) := by
  obtain ⟨hpend, -, h⟩ | ⟨hpend, -, -, h⟩ | ⟨-, h⟩ := route_cases k F s <;> rw [h]
  · exact .of_resolve rfl hpend rfl
  · exact .of_resolve rfl hpend rfl
  · exact .of_no_result rfl rfl (by simp)

theorem rxByte_resolution (k : Cfg) (b : Byte) (s : State) : QResultOnlyOnResolution s (rxByte k b s) := by
  by_cases hp : s.pos = .awaitEnd
  · by_cases hb : b = ENDMARK
    · rw [hb, rxByte_awaitEnd_match k hp]
      exact route_resolution k _ { s with rxf := { s.rxf with endm := ENDMARK }, pos := .awaitStart }
    · rw [rxByte_awaitEnd_mismatch k hp hb]
      exact .of_onlyDecodeFails (.of_fail rfl rfl)
  · exact .of_onlyDecodeFails (rxByte_before_awaitEnd k b hp).1

theorem drive_resolution (k : Cfg) (bs : List Byte) (s : State) : QResultOnlyOnResolution s (drive k bs s) := by
  induction bs generalizing s with
  | nil => exact .refl s
  | cons b bs ih => exact (rxByte_resolution k b s).trans (ih _)

theorem tickEvent_resolution (k : Cfg) (s : State) : QResultOnlyOnResolution s (tickEvent k s) := by
  obtain ⟨hpend, -, h⟩ | ⟨-, h⟩ := tickEvent_cases k s <;> rw [h]
  · exact .of_resolve rfl hpend rfl
  · exact .of_onlyDecodeFails (.of_out_eq rfl rfl)

/-- `Issue` puts out a transmission or nothing (R124). -/
theorem issue_resolution (k : Cfg) (a : Action) (args : Args) (s : State) :
    QResultOnlyOnResolution s (issue k a args s) := by
  rw [issue_eq]
  split
  · exact .of_no_result rfl rfl (by simp)
  · exact .refl s

/-- The only QResult an `Ask` puts out at once is Busy (R170, R171). -/
theorem ask_out_eq_busy {k : Cfg} {q m l : Byte} {tm : Nat} {s : State} {r : Res}
    (hout : (ask k q m l tm s).out = s.out ++ [.qresult r]) : r = .busy := by
  cases hpend : s.pend
  case true => simpa [ask_of_pending k q m l tm hpend, eq_comm] using hout
  case false => simp [ask_of_idle k q m l tm hpend] at hout

/-- A QResult other than Busy resolves the pending query, whatever the instruction. -/
theorem pend_of_exec_qresult {i : Instr} {s t : State} {r : Res} (hexec : exec i s = .next t)
    (hout : t.out = s.out ++ [.qresult r]) (hr : r ≠ .busy) : s.pend = true ∧ t.pend = false := by
  obtain ⟨a, args, -, h⟩ | ⟨q, m, l, tm, -, h⟩ | ⟨c, f, m, l, -, h⟩ | ⟨f, m, l, -, h⟩ | ⟨b, -, h⟩ | ⟨-, h⟩ | ⟨-, h⟩ :=
    exec_cases i s <;> obtain rfl := Host.Outcome.next.inj (h.symm.trans hexec)
  case inl => exact (issue_resolution cfg a args s).pend_of_out hout
  case inr.inl => exact absurd (ask_out_eq_busy hout) hr
  case inr.inr.inl => exact (drive_resolution cfg _ s).pend_of_out hout
  case inr.inr.inr.inl => exact (drive_resolution cfg _ s).pend_of_out hout
  case inr.inr.inr.inr.inl => exact (rxByte_resolution cfg b s).pend_of_out hout
  case inr.inr.inr.inr.inr.inl => exact (tickEvent_resolution cfg s).pend_of_out hout
  case inr.inr.inr.inr.inr.inr => simp at hout

/-- Settles O50: the result clears `pend`, and ASK with no query pending is accepted. -/
theorem resolutionClearsTheQuery : Obligations.ResolutionClearsTheQuery := by
  intro i s t r hexec hout hr
  obtain ⟨hbefore, hafter⟩ := pend_of_exec_qresult hexec hout hr
  exact ⟨hbefore, hafter, fun q msb lsb tm htm => exec_of_askOf_idle rfl htm hafter⟩

end Sys2Proof.Machine
end

section
/-! Well-formedness and the checksum test (30_encoding.md R61; 40_framecodec.md R92, R94, R95): a well-formed frame is the one
its four middle bytes encode to, and the checksum as an equation of numbers. -/

namespace Sys2Proof.Machine
open Safety

/-- The four constants and the checksum are all that R61 asks of the other six bytes. -/
theorem frameWf_iff_eq_encodeFrame (F : Frame) : frameWf F = true ↔ F = encodeFrame F.cmd F.fb F.pmsb F.plsb := by
  rw [frameWf_iff]
  constructor
  · rintro ⟨hstart, hver, hlen, hend, hck⟩
    have hsame : checksumOf F = checksumOf (encodeFrame F.cmd F.fb F.pmsb F.plsb) :=
      checksumOf_congr hver hlen rfl rfl rfl rfl
    have hhi : F.ckmsb = (encodeFrame F.cmd F.fb F.pmsb F.plsb).ckmsb := by
      rw [encodeFrame_ckmsb, ← hsame, ← hck, frameChecksum, hiByte_joinBytes]
    have hlo : F.cklsb = (encodeFrame F.cmd F.fb F.pmsb F.plsb).cklsb := by
      rw [encodeFrame_cklsb, ← hsame, ← hck, frameChecksum, loByte_joinBytes]
    calc F
        = ⟨F.start, F.ver, F.len, F.cmd, F.fb, F.pmsb, F.plsb, F.ckmsb, F.cklsb, F.endm⟩ := rfl
      _ = encodeFrame F.cmd F.fb F.pmsb F.plsb := by rw [hstart, hver, hlen, hend, hhi, hlo]; rfl
  · intro h
    rw [h]
    exact (frameWf_iff _).mp (frameWf_encodeFrame ..)

/-- The high byte of an encoded frame's checksum lies in 0xFA to 0xFE (R92). -/
theorem encodeFrame_ckmsb_bounds (c f m l : Byte) :
    0xFA ≤ (encodeFrame c f m l).ckmsb.toNat ∧ (encodeFrame c f m l).ckmsb.toNat ≤ 0xFE := by
  rw [encodeFrame_ckmsb, hiByte_toNat, checksumOf_encodeFrame_toNat]
  bv_omega

/-- Settles O4: the frame the codec builds from the four bytes is the one the spec writes out. -/
theorem wellFormedIffSpecFrame : Obligations.WellFormedIffSpecFrame := by
  intro F
  rw [← encodeFrame_eq_specFrame]
  exact frameWf_iff_eq_encodeFrame F

/-- Settles O5: the checksum is the negated sum, and both lie below 2^16. -/
theorem checksumSumTestIsEquivalent : Obligations.ChecksumSumTestIsEquivalent := by
  intro F
  have hle := sixSum_le F
  have hlt := (frameChecksum F).isLt
  rw [← BitVec.toNat_inj, checksumOf_toNat]
  omega

/-- Settles O6: the sum of six bytes is far below 2^16, and an encoded frame's is 0x0105 and four bytes. -/
theorem checksumRangesOfEncodedFrames : Obligations.ChecksumRangesOfEncodedFrames := by
  refine ⟨fun F => ⟨frameSum_toNat F, sixSum_le F, ?_⟩, fun c f m l => ?_⟩
  · have hle := sixSum_le F
    have hzero : (0 : Word).toNat = 0 := rfl
    rw [← BitVec.toNat_inj, checksumOf_toNat, hzero]
    omega
  · have hvalue := checksumOf_encodeFrame_toNat c f m l
    obtain ⟨hmin, hmax⟩ := encodeFrame_ckmsb_bounds c f m l
    have hc := c.isLt
    have hf := f.isLt
    have hm := m.isLt
    have hl := l.isLt
    exact ⟨by omega, by omega, hmin, hmax⟩

/-- Settles O7: under the same checksum bytes the test of R94 sees the sum of offsets 1 to 6 and nothing else of them. -/
theorem changedSumIsDetected : Obligations.ChangedSumIsDetected := by
  intro F G hF hhi hlo
  obtain ⟨hstart, hver, hlen, hend, hck⟩ := (frameWf_iff F).mp hF
  have hsame : frameChecksum G = frameChecksum F := by rw [frameChecksum, frameChecksum, hhi, hlo]
  constructor
  · intro hsum
    refine Bool.eq_false_iff.mpr fun hG => ?_
    obtain ⟨-, -, -, -, hckG⟩ := (frameWf_iff G).mp hG
    exact frameChecksum_ne_of_sixSum_ne hck hsame hsum hckG
  · intro hs hv hn he hsum
    have hsumof : checksumOf G = checksumOf F := by
      rw [← BitVec.toNat_inj, checksumOf_toNat, checksumOf_toNat, hsum]
    exact (frameWf_iff G).mpr ⟨hs.trans hstart, hv.trans hver, hn.trans hlen, he.trans hend, by rw [hsame, hck, hsumof]⟩

end Sys2Proof.Machine
end

section
/-! Decoder and encoder (spec/30_encoding.md sections 1 to 4). An encoded instruction is one row of the table (`FitsRow`); each
part of the decoder accepts exactly the words of its rows, so the decoder inverts the encoder. -/

namespace Sys2Proof
open Machine

/-! The checks that all rows with a frame share (R60, R61). -/

theorem checkFrame_eq_ok_iff {bits : List Byte} {F : Frame} :
    checkFrame bits = .ok F ↔ bits = frameBytes F ∧ frameWf F = true := by
  constructor
  · intro h
    unfold checkFrame at h
    split at h
    · cases h
    · next G hG =>
      split_ifs at h with hstart hver hlen hend hck
      cases h
      exact ⟨frameBytes_of_frameOfBytes hG, (frameWf_iff F).mpr
        ⟨not_not.mp hstart, not_not.mp hver, not_not.mp hlen, not_not.mp hend, not_not.mp hck⟩⟩
  · rintro ⟨rfl, hF⟩
    obtain ⟨hstart, hver, hlen, hend, hck⟩ := (frameWf_iff F).mp hF
    simp [checkFrame, hstart, hver, hlen, hend, hck]

/-- A well-formed frame is determined by its four middle bytes (R61). -/
theorem encodeFrame_eq_iff {F : Frame} (hF : frameWf F = true) (c f m l : Byte) :
    encodeFrame c f m l = F ↔ F.cmd = c ∧ F.fb = f ∧ F.pmsb = m ∧ F.plsb = l := by
  constructor
  · rintro rfl
    exact ⟨rfl, rfl, rfl, rfl⟩
  · rintro ⟨rfl, rfl, rfl, rfl⟩
    exact ((frameWf_iff_eq_encodeFrame F).mp hF).symm

theorem frameBytes_injective : Function.Injective frameBytes := fun _ _ h =>
  Option.some.inj (congrArg frameOfBytes h)

/-- A row below 43 holds a frame, which the decoder of that row reads. -/
theorem decode_eq_ok_iff_of_frame {k : Cfg} {w : Encoded} {i : Instr} (hrow : w.row < 43) :
    decode k w = .ok i ↔ ∃ F, w.bits = frameBytes F ∧ frameWf F = true ∧ decodeFrameRow k F w = .ok i := by
  unfold decode
  split
  · omega
  · omega
  · omega
  · rw [if_neg (by omega)]
    cases hcheck : checkFrame w.bits with
    | error e =>
      refine iff_of_false (by simp) ?_
      rintro ⟨F, hbits, hF, -⟩
      simp [checkFrame_eq_ok_iff.mpr ⟨hbits, hF⟩] at hcheck
    | ok F =>
      obtain ⟨hbits, hF⟩ := checkFrame_eq_ok_iff.mp hcheck
      constructor
      · exact fun h => ⟨F, hbits, hF, h⟩
      · rintro ⟨G, hG, -, h⟩
        obtain rfl : F = G := frameBytes_injective (hbits.symm.trans hG)
        exact h

/-! One row of the table. -/

/-- The row, the medium and the timeout of `w` are those of `i`, whose frame is `F`, and the encoding admits the operands of
`i`. -/
structure FitsRow (k : Cfg) (F : Frame) (w : Encoded) (i : Instr) : Prop where
  row : rowOf i = w.row
  frame : wireFrame k i = some F
  med : encodedMed i = w.med
  tmo : encodedTmo k i = w.tmo
  encodable : i.encodable k = true

/-- Every row below 43 has a frame, and a well-formed one. -/
theorem exists_wireFrame (k : Cfg) {i : Instr} (hrow : rowOf i < 43) :
    ∃ F, wireFrame k i = some F ∧ frameWf F = true := by
  have hframe : ∃ c f m l, wireFrame k i = some (encodeFrame c f m l) := by
    cases i
    case rxbyte | tick | reset => simp [rowOf] at hrow
    all_goals exact ⟨_, _, _, _, rfl⟩
  obtain ⟨c, f, m, l, h⟩ := hframe
  exact ⟨_, h, frameWf_encodeFrame c f m l⟩

theorem encodedBits_of_wireFrame {k : Cfg} {i : Instr} {F : Frame} (h : wireFrame k i = some F) :
    encodedBits k i = frameBytes F := by
  unfold encodedBits
  rw [h]

theorem encode_eq_iff {k : Cfg} {w : Encoded} {i : Instr} :
    encode k i = w ↔ rowOf i = w.row ∧ encodedBits k i = w.bits ∧ encodedMed i = w.med ∧ encodedTmo k i = w.tmo := by
  constructor
  · rintro rfl
    exact ⟨rfl, rfl, rfl, rfl⟩
  · rintro ⟨hrow, hbits, hmed, htmo⟩
    rw [encode, hrow, hbits, hmed, htmo]

/-- Encoding to a word whose row holds a frame is fitting that row with that frame. -/
theorem encode_eq_iff_fitsRow {k : Cfg} {w : Encoded} {i : Instr} (hrow : w.row < 43) :
    (i.encodable k = true ∧ encode k i = w) ↔ ∃ F, w.bits = frameBytes F ∧ frameWf F = true ∧ FitsRow k F w i := by
  rw [encode_eq_iff]
  constructor
  · rintro ⟨henc, hr, hbits, hmed, htmo⟩
    obtain ⟨F, hframe, hF⟩ := exists_wireFrame k (hr.trans_lt hrow)
    exact ⟨F, hbits.symm.trans (encodedBits_of_wireFrame hframe), hF, hr, hframe, hmed, htmo, henc⟩
  · rintro ⟨F, hbits, -, h⟩
    exact ⟨h.encodable, h.row, (encodedBits_of_wireFrame h.frame).trans hbits.symm, h.med, h.tmo⟩

/-! The rows of the control actions (R64 to R69). -/

/-- PACK_LF keeps the operands whole; the other classes always do (R67). -/
def packsWhole : Args → Prop
  | .packLf f t => f.toNat < 16 ∧ t.toNat < 4096
  | _ => True

/-- The folder and the track of a packed word (R67). -/
theorem shiftRight_hiByte_packLf {f : Byte} (hf : f.toNat < 16) (t : Word) : hiByte (packLf f t) >>> 4 = f := by
  apply BitVec.eq_of_toNat_eq
  rw [BitVec.toNat_ushiftRight, hiByte_toNat, packLf_toNat, Nat.shiftRight_eq_div_pow]
  omega

theorem and_mask_toNat (v : Word) : (v &&& 0x0FFF).toNat = v.toNat % 4096 := by
  rw [BitVec.toNat_and]
  exact Nat.and_two_pow_sub_one_eq_mod v.toNat 12

theorem packLf_and_mask (f : Byte) {t : Word} (ht : t.toNat < 4096) : packLf f t &&& 0x0FFF = t := by
  apply BitVec.eq_of_toNat_eq
  rw [and_mask_toNat, packLf_toNat]
  omega

/-- What is read from two bytes fits the fields it is packed into. -/
theorem packsWhole_of_bytes (hi : Byte) (v : Word) : packsWhole (.packLf (hi >>> 4) (v &&& 0x0FFF)) := by
  have hhi := hi.isLt
  have hfolder : (hi >>> 4).toNat < 16 := by
    rw [BitVec.toNat_ushiftRight, Nat.shiftRight_eq_div_pow]
    omega
  have htrack : (v &&& 0x0FFF).toNat < 4096 := by
    rw [and_mask_toNat]
    exact Nat.mod_lt _ (by norm_num)
  exact ⟨hfolder, htrack⟩

/-- Any two parameter bytes are those of the folder and the track they are read as. -/
theorem packLf_of_bytes (hi lo : Byte) : packLf (hi >>> 4) (joinBytes hi lo &&& 0x0FFF) = joinBytes hi lo := by
  apply BitVec.eq_of_toNat_eq
  have hhi := hi.isLt
  have hlo := lo.isLt
  rw [packLf_toNat, and_mask_toNat, joinBytes_toNat, BitVec.toNat_ushiftRight, Nat.shiftRight_eq_div_pow]
  omega

/-- The operands read from a frame are the ones of the action's class that fill its two parameter bytes. -/
theorem argsOfFrame_eq_ok_iff {k : Cfg} {a : Action} {F : Frame} {args : Args} :
    argsOfFrame k a F = .ok args ↔
      argsClass args = actionClass a ∧ packsWhole args ∧ params k a args = (F.pmsb, F.plsb) := by
  constructor
  · intro h
    unfold argsOfFrame at h
    split at h
    next hclass =>
      split_ifs at h with hbytes
      cases h
      exact ⟨hclass.symm, trivial, Prod.ext hbytes.1.symm hbytes.2.symm⟩
    next hclass =>
      cases h
      exact ⟨hclass.symm, trivial, Prod.ext (hiByte_joinBytes ..) (loByte_joinBytes ..)⟩
    next hclass =>
      cases h
      exact ⟨hclass.symm, trivial, rfl⟩
    next hclass =>
      cases h
      refine ⟨hclass.symm, packsWhole_of_bytes F.pmsb (frameValue F), ?_⟩
      rw [params, frameValue, packLf_of_bytes, hiByte_joinBytes, loByte_joinBytes]
  · rintro ⟨hclass, hwhole, hparams⟩
    obtain ⟨hhi, hlo⟩ := Prod.mk.inj hparams
    unfold argsOfFrame
    rw [← hclass, frameValue, ← hhi, ← hlo]
    cases args with
    | none => exact if_pos ⟨rfl, rfl⟩
    | val16 v => simp only [argsClass, joinBytes_hi_lo]
    | bytes2 hi lo => rfl
    | packLf f t =>
      obtain ⟨hf, ht⟩ := hwhole
      have hfolder := shiftRight_hiByte_packLf hf t
      have htrack := packLf_and_mask f ht
      simp only [argsClass, joinBytes_hi_lo, hfolder, htrack]

/-- `instrOfIssue` inverts `issueOf`. -/
theorem instrOfIssue_of_issueOf {a : Action} {args : Args} {i : Instr} (h : issueOf i = some (a, args)) :
    instrOfIssue a args = some i := by
  cases i <;> cases h <;> rfl

theorem issueOf_of_instrOfIssue {a : Action} {args : Args} {i : Instr} (h : instrOfIssue a args = some i) :
    issueOf i = some (a, args) := by
  cases a <;> cases args <;> cases h <;> rfl

theorem decodeIssue_eq_ok_iff {k : Cfg} {a : Action} {F : Frame} {w : Encoded} {i : Instr} :
    decodeIssue k a F w = .ok i ↔
      F.fb = k.fbDefault ∧ F.cmd = actionCode k a ∧ w.med = 0 ∧ w.tmo = 0
        ∧ ∃ args, issueOf i = some (a, args) ∧ actionValid k a args = true ∧ packsWhole args
            ∧ params k a args = (F.pmsb, F.plsb) := by
  constructor
  · intro h
    unfold decodeIssue at h
    split_ifs at h with hfb hcmd hstray
    obtain ⟨hmed, htmo⟩ := not_or.mp hstray
    split at h
    · cases h
    · next args hargs =>
      split_ifs at h with hvalid
      split at h
      · next j hj =>
        cases h
        obtain ⟨-, hwhole, hparams⟩ := argsOfFrame_eq_ok_iff.mp hargs
        exact ⟨not_not.mp hfb, not_not.mp hcmd, not_not.mp hmed, not_not.mp htmo, args,
          issueOf_of_instrOfIssue hj, by simpa using hvalid, hwhole, hparams⟩
      · cases h
  · rintro ⟨hfb, hcmd, hmed, htmo, args, hissue, hvalid, hwhole, hparams⟩
    have hargs := argsOfFrame_eq_ok_iff.mpr ⟨issueOf_class hissue, hwhole, hparams⟩
    simp [decodeIssue, hfb, hcmd, hmed, htmo, hargs, hvalid, instrOfIssue_of_issueOf hissue]

section
variable {k : Cfg} {F : Frame} {w : Encoded} {i : Instr} {a : Action} {args : Args}

/-- An action stands in the row its place in the list of actions gives. -/
theorem actionRows_rowOf (h : issueOf i = some (a, args)) : actionRows[rowOf i]? = some a := by
  cases i <;> cases h <;> rfl

theorem rowOf_eq_iff_of_issueOf {n : Nat} (h : issueOf i = some (a, args)) : rowOf i = n ↔ actionRows[n]? = some a := by
  have hrow := actionRows_rowOf h
  constructor
  · rintro rfl
    exact hrow
  · intro hn
    have hlt : rowOf i < actionRows.length := (List.getElem?_eq_some_iff.mp hrow).1
    exact (List.getElem?_inj hlt (by decide)).mp (hrow.trans hn.symm)

/-- The rows below 31 are those of the actions. -/
theorem exists_issueOf (hrow : rowOf i < 31) : ∃ a args, issueOf i = some (a, args) := by
  cases i
  case ask | qstatus | qvolume | qeq | qmode | qversion | qcount | qcurtrack | qfolders | qfoldertracks | rxframe | rxerror
    | rxbyte | tick | reset => simp [rowOf] at hrow
  all_goals exact ⟨_, _, rfl⟩

theorem encodable_iff_of_issueOf (h : issueOf i = some (a, args)) :
    i.encodable k = true ↔ actionValid k a args = true ∧ packsWhole args := by
  cases i <;> cases h <;> simp [Instr.encodable, Instr.wellFormed, issueOf, packsWhole, and_assoc]

theorem fitsRow_iff_of_issueOf (h : issueOf i = some (a, args)) :
    FitsRow k F w i ↔
      actionRows[w.row]? = some a
        ∧ encodeFrame (actionCode k a) k.fbDefault (params k a args).1 (params k a args).2 = F
        ∧ w.med = 0 ∧ w.tmo = 0 ∧ actionValid k a args = true ∧ packsWhole args := by
  have hframe : wireFrame k i
      = some (encodeFrame (actionCode k a) k.fbDefault (params k a args).1 (params k a args).2) := by
    simp [wireFrame, h]
  have htmo : encodedTmo k i = 0 := by simp [encodedTmo, askOf_eq_none_of_issueOf k h]
  have hmed : encodedMed i = 0 := by
    cases i <;> cases h <;> rfl
  rw [← rowOf_eq_iff_of_issueOf h, ← encodable_iff_of_issueOf h]
  constructor
  · rintro ⟨hr, hf, hm, ht, he⟩
    exact ⟨hr, Option.some.inj (hframe.symm.trans hf), hm.symm.trans hmed, ht.symm.trans htmo, he⟩
  · rintro ⟨hr, rfl, hm, ht, he⟩
    exact ⟨hr, hframe, hmed.trans hm.symm, htmo.trans ht.symm, he⟩

/-- An action's row accepts exactly the instructions that fit it. -/
theorem decodeIssue_eq_ok_iff_fitsRow (hF : frameWf F = true) (ha : actionRows[w.row]? = some a) :
    decodeIssue k a F w = .ok i ↔ FitsRow k F w i := by
  have hrow : w.row < 31 := (List.getElem?_eq_some_iff.mp ha).1
  rw [decodeIssue_eq_ok_iff]
  constructor
  · rintro ⟨hfb, hcmd, hmed, htmo, args, hissue, hvalid, hwhole, hparams⟩
    refine (fitsRow_iff_of_issueOf hissue).mpr ⟨ha, ?_, hmed, htmo, hvalid, hwhole⟩
    rw [hparams]
    exact (encodeFrame_eq_iff hF ..).mpr ⟨hcmd, hfb, rfl, rfl⟩
  · intro h
    obtain ⟨b, args, hissue⟩ := exists_issueOf (h.row.trans_lt hrow)
    obtain ⟨hb, hframe, hmed, htmo, hvalid, hwhole⟩ := (fitsRow_iff_of_issueOf hissue).mp h
    obtain rfl : a = b := Option.some.inj (ha.symm.trans hb)
    obtain ⟨hcmd, hfb, hp, hl⟩ := (encodeFrame_eq_iff hF ..).mp hframe
    exact ⟨hfb, hcmd, hmed, htmo, args, hissue, hvalid, hwhole, by rw [hp, hl]⟩

end

/-! The rows of the queries (R70, R171, R172). -/

section
variable {k : Cfg} {F : Frame} {w : Encoded} {i j : Instr} {q m l : Byte} {t : Nat}

theorem decodePlainQuery_eq_ok_iff {query : Query} :
    decodePlainQuery k query F w j = .ok i ↔
      (F.cmd = k.qcat query ∧ F.fb = k.fbDefault ∧ F.pmsb = 0 ∧ F.plsb = 0)
        ∧ w.med = 0 ∧ fitsTicks k w.tmo = true ∧ j = i := by
  unfold decodePlainQuery
  split_ifs <;> grind

theorem decodeMediumQuery_eq_ok_iff {query : Query} :
    decodeMediumQuery k query F w j = .ok i ↔
      (F.cmd = k.qcat query ∧ F.fb = k.fbDefault ∧ F.pmsb = 0 ∧ F.plsb = 0)
        ∧ (k.media.contains w.med && fitsTicks k w.tmo) = true ∧ j = i := by
  unfold decodeMediumQuery
  split_ifs <;> grind

theorem decodeAsk_eq_ok_iff :
    decodeAsk k F w = .ok i ↔
      F.fb = k.fbDefault ∧ w.med = 0 ∧ fitsTicks k w.tmo = true ∧ .ask F.cmd F.pmsb F.plsb w.tmo = i := by
  unfold decodeAsk
  split_ifs <;> grind

theorem decodeFolderTracks_eq_ok_iff :
    decodeFolderTracks k F w = .ok i ↔
      F.cmd = k.qcat .folderTracks ∧ F.fb = k.fbDefault ∧ w.med = 0 ∧ fitsTicks k w.tmo = true
        ∧ .qfoldertracks (frameValue F) w.tmo = i := by
  unfold decodeFolderTracks
  split_ifs <;> grind

/-- A query fits a row with its frame; its operands are admitted where it is an operation of the spec. -/
theorem fitsRow_iff_of_askOf (hF : frameWf F = true) (h : askOf k i = some (q, m, l, t)) :
    FitsRow k F w i ↔
      rowOf i = w.row ∧ (F.cmd = q ∧ F.fb = k.fbDefault ∧ F.pmsb = m ∧ F.plsb = l)
        ∧ encodedMed i = w.med ∧ t = w.tmo ∧ i.wellFormed k = true := by
  have hissue : issueOf i = none := by
    cases i <;> cases h <;> rfl
  have hframe : wireFrame k i = some (encodeFrame q k.fbDefault m l) := by simp [wireFrame, hissue, h]
  have htmo : encodedTmo k i = t := by simp [encodedTmo, h]
  have henc : i.encodable k = i.wellFormed k := by simp [Instr.encodable, hissue]
  rw [← encodeFrame_eq_iff hF]
  constructor
  · rintro ⟨hr, hf, hm, ht, he⟩
    exact ⟨hr, Option.some.inj (hframe.symm.trans hf), hm, htmo.symm.trans ht, henc ▸ he⟩
  · rintro ⟨hr, rfl, hm, ht, he⟩
    exact ⟨hr, hframe, hm, htmo.trans ht, henc ▸ he⟩

end

/-! All rows. -/

theorem fitsRow_of_decodeFrameRow {k : Cfg} {F : Frame} {w : Encoded} {i : Instr} (hF : frameWf F = true)
    (h : decodeFrameRow k F w = .ok i) : FitsRow k F w i := by
  have plain {query : Query} {j : Instr} (hd : decodePlainQuery k query F w j = .ok i) (hrow : rowOf j = w.row)
      (hask : askOf k j = some (k.qcat query, 0, 0, w.tmo)) (hmed : encodedMed j = 0)
      (hwf : j.wellFormed k = fitsTicks k w.tmo) : FitsRow k F w i := by
    obtain ⟨hfields, hm, ht, rfl⟩ := decodePlainQuery_eq_ok_iff.mp hd
    exact (fitsRow_iff_of_askOf hF hask).mpr ⟨hrow, hfields, hmed.trans hm.symm, rfl, hwf.trans ht⟩
  unfold decodeFrameRow at h
  split at h
  next hrow =>
    obtain ⟨hfb, hm, ht, rfl⟩ := decodeAsk_eq_ok_iff.mp h
    exact (fitsRow_iff_of_askOf hF rfl).mpr ⟨hrow.symm, ⟨rfl, hfb, rfl, rfl⟩, hm.symm, rfl, ht⟩
  next hrow => exact plain h hrow.symm rfl rfl rfl
  next hrow => exact plain h hrow.symm rfl rfl rfl
  next hrow => exact plain h hrow.symm rfl rfl rfl
  next hrow => exact plain h hrow.symm rfl rfl rfl
  next hrow => exact plain h hrow.symm rfl rfl rfl
  next hrow =>
    obtain ⟨hfields, ht, rfl⟩ := decodeMediumQuery_eq_ok_iff.mp h
    exact (fitsRow_iff_of_askOf hF rfl).mpr ⟨hrow.symm, hfields, rfl, rfl, ht⟩
  next hrow =>
    obtain ⟨hfields, ht, rfl⟩ := decodeMediumQuery_eq_ok_iff.mp h
    exact (fitsRow_iff_of_askOf hF rfl).mpr ⟨hrow.symm, hfields, rfl, rfl, ht⟩
  next hrow => exact plain h hrow.symm rfl rfl rfl
  next hrow =>
    obtain ⟨hcmd, hfb, hm, ht, rfl⟩ := decodeFolderTracks_eq_ok_iff.mp h
    refine (fitsRow_iff_of_askOf hF rfl).mpr ⟨hrow.symm, ⟨hcmd, hfb, ?_, ?_⟩, hm.symm, rfl, ht⟩
    · rw [frameValue, hiByte_joinBytes]
    · rw [frameValue, loByte_joinBytes]
  next hrow =>
    split_ifs at h with hstray
    obtain ⟨hm, ht⟩ := not_or.mp hstray
    cases h
    exact ⟨hrow.symm, congrArg some ((frameWf_iff_eq_encodeFrame F).mp hF).symm, (not_not.mp hm).symm,
      (not_not.mp ht).symm, rfl⟩
  next hrow =>
    split_ifs at h with hcmd hstray
    obtain ⟨hm, ht⟩ := not_or.mp hstray
    cases h
    exact ⟨hrow.symm, congrArg some ((encodeFrame_eq_iff hF ..).mpr ⟨not_not.mp hcmd, rfl, rfl, rfl⟩),
      (not_not.mp hm).symm, (not_not.mp ht).symm, rfl⟩
  next =>
    split at h
    next ha => exact (decodeIssue_eq_ok_iff_fitsRow hF ha).mp h
    next => cases h

theorem decodeFrameRow_of_action {k : Cfg} {F : Frame} {w : Encoded} {a : Action} (ha : actionRows[w.row]? = some a) :
    decodeFrameRow k F w = decodeIssue k a F w := by
  have hrow : w.row < 31 := (List.getElem?_eq_some_iff.mp ha).1
  unfold decodeFrameRow
  split
  case h_13 => rw [ha]
  all_goals omega

theorem decodeFrameRow_of_fitsRow {k : Cfg} {F : Frame} {w : Encoded} {i : Instr} (hF : frameWf F = true)
    (hrow : w.row < 43) (h : FitsRow k F w i) : decodeFrameRow k F w = .ok i := by
  have hw : w.row = rowOf i := h.row.symm
  have of_action {a : Action} {args : Args} (hissue : issueOf i = some (a, args)) : decodeFrameRow k F w = .ok i := by
    obtain ⟨ha, -⟩ := (fitsRow_iff_of_issueOf hissue).mp h
    rw [decodeFrameRow_of_action ha, decodeIssue_eq_ok_iff_fitsRow hF ha]
    exact h
  have of_plain {query : Query} {t : Nat} (hask : askOf k i = some (k.qcat query, 0, 0, t)) (hmed : encodedMed i = 0)
      (hwf : i.wellFormed k = fitsTicks k t) : decodePlainQuery k query F w i = .ok i ∧ t = w.tmo := by
    obtain ⟨-, hfields, hm, rfl, ht⟩ := (fitsRow_iff_of_askOf hF hask).mp h
    exact ⟨decodePlainQuery_eq_ok_iff.mpr ⟨hfields, hm.symm.trans hmed, hwf.symm.trans ht, rfl⟩, rfl⟩
  cases i
  case ask q m l t =>
    obtain ⟨-, ⟨rfl, hfb, rfl, rfl⟩, hm, rfl, ht⟩ := (fitsRow_iff_of_askOf hF rfl).mp h
    rw [decodeFrameRow, hw]
    exact decodeAsk_eq_ok_iff.mpr ⟨hfb, hm.symm, ht, rfl⟩
  case qstatus t | qvolume t | qeq t | qmode t | qversion t | qfolders t =>
    obtain ⟨hd, rfl⟩ := of_plain rfl rfl rfl
    rw [decodeFrameRow, hw]
    exact hd
  case qcount med t | qcurtrack med t =>
    obtain ⟨-, hfields, hm, rfl, ht⟩ := (fitsRow_iff_of_askOf hF rfl).mp h
    obtain rfl : med = w.med := hm
    rw [decodeFrameRow, hw]
    exact decodeMediumQuery_eq_ok_iff.mpr ⟨hfields, ht, rfl⟩
  case qfoldertracks f t =>
    obtain ⟨-, ⟨hcmd, hfb, hhi, hlo⟩, hm, rfl, ht⟩ := (fitsRow_iff_of_askOf hF rfl).mp h
    rw [decodeFrameRow, hw]
    refine decodeFolderTracks_eq_ok_iff.mpr ⟨hcmd, hfb, hm.symm, ht, ?_⟩
    rw [frameValue, hhi, hlo, joinBytes_hi_lo]
  case rxframe c f m l =>
    obtain rfl : encodeFrame c f m l = F := Option.some.inj h.frame
    have hm : w.med = 0 := h.med.symm
    have ht : w.tmo = 0 := h.tmo.symm
    simp [decodeFrameRow, hw, rowOf, hm, ht]
  case rxerror f m l =>
    obtain rfl : encodeFrame ERR_CODE f m l = F := Option.some.inj h.frame
    have hm : w.med = 0 := h.med.symm
    have ht : w.tmo = 0 := h.tmo.symm
    simp [decodeFrameRow, hw, rowOf, hm, ht]
  case rxbyte | tick | reset => simp [hw, rowOf] at hrow
  all_goals exact of_action rfl

/-- The decoder answers `i` on exactly the word that is the encoding of `i`, where the encoding admits the operands of `i`. -/
theorem decode_eq_ok_iff {k : Cfg} {w : Encoded} {i : Instr} :
    decode k w = .ok i ↔ i.encodable k = true ∧ encode k i = w := by
  by_cases hrow : w.row < 43
  · rw [decode_eq_ok_iff_of_frame hrow, encode_eq_iff_fitsRow hrow]
    refine exists_congr fun F => and_congr_right fun _ => and_congr_right fun hF => ?_
    exact ⟨fitsRow_of_decodeFrameRow hF, decodeFrameRow_of_fitsRow hF hrow⟩
  · constructor
    · intro h
      unfold decode at h
      split at h
      next hr =>
        split_ifs at h with hstray
        obtain ⟨hm, ht⟩ := not_or.mp hstray
        split at h
        next b hbits =>
          cases h
          exact ⟨rfl, encode_eq_iff.mpr ⟨hr.symm, hbits.symm, (not_not.mp hm).symm, (not_not.mp ht).symm⟩⟩
        next => cases h
      next hr =>
        split_ifs at h with hstray hbits
        obtain ⟨hm, ht⟩ := not_or.mp hstray
        cases h
        exact ⟨rfl, encode_eq_iff.mpr ⟨hr.symm, hbits.symm, (not_not.mp hm).symm, (not_not.mp ht).symm⟩⟩
      next hr =>
        split_ifs at h with hstray hbits
        obtain ⟨hm, ht⟩ := not_or.mp hstray
        cases h
        exact ⟨rfl, encode_eq_iff.mpr ⟨hr.symm, hbits.symm, (not_not.mp hm).symm, (not_not.mp ht).symm⟩⟩
      next h43 h44 h45 =>
        have habove : 45 < w.row := by
          change w.row ≠ 43 at h43
          change w.row ≠ 44 at h44
          change w.row ≠ 45 at h45
          omega
        rw [if_pos habove] at h
        cases h
    · rintro ⟨-, rfl⟩
      have hrow' : ¬ rowOf i < 43 := hrow
      cases i
      case rxbyte | tick | reset => rfl
      all_goals simp [rowOf] at hrow'

/-- Settles O9: the encoding of `i` is the word that decodes to `i`. -/
theorem decodeOfEncodeIsTheInstruction : Obligations.DecodeOfEncodeIsTheInstruction := fun _ _ henc =>
  decode_eq_ok_iff.mpr ⟨henc, rfl⟩

/-- Settles O10: the same equivalence, read from the word. -/
theorem encodeOfDecodeIsTheWord : Obligations.EncodeOfDecodeIsTheWord := fun _ _ _ h => decode_eq_ok_iff.mp h

end Sys2Proof
end

section
/-! One step, and reset (spec/00_scope.md section 5; 10_state.md R35; 70_reset_and_hazards.md R240): every instruction answers a
next state, and a step is the instruction at the head of the queue. -/

namespace Sys2Proof.Machine
open Safety

/-- UFB has no fault state (60_exceptions.md R215): each meaning answers a next state. -/
theorem exec_total (i : Instr) (s : State) : ∃ t : State, exec i s = .next t := by
  obtain ⟨a, args, -, h⟩ | ⟨q, m, l, tm, -, h⟩ | ⟨c, f, m, l, -, h⟩ | ⟨f, m, l, -, h⟩ | ⟨b, -, h⟩ | ⟨-, h⟩ | ⟨-, h⟩ :=
    exec_cases i s <;> exact ⟨_, h⟩

theorem step_of_inq_cons {i : Instr} {rest : List Instr} {s : State} (h : s.inq = i :: rest) :
    step s = exec i { s with inq := rest } := by
  simp [step, takeEvent, h]

theorem step_of_inq_nil {s : State} (h : s.inq = []) : step s = .next s := by
  simp [step, takeEvent, h]

theorem withFetchWord_of_decode {nbits w : Nat} {i : Instr} (s : State) (h : decodeTableWord nbits w = some i) :
    s.withFetchWord nbits w = { s with inq := i :: s.inq } := by
  simp [State.withFetchWord, h]

/-- Settles O11: the decoder evaluated on the five words. -/
theorem specWordsDecode : Obligations.SpecWordsDecode := by
  unfold Obligations.SpecWordsDecode
  decide

/-- Settles O12: the two cases of the queue. -/
theorem stepRunsTheNextEvent : Obligations.StepRunsTheNextEvent :=
  ⟨fun _ _ _ h => step_of_inq_cons h, fun _ h => step_of_inq_nil h⟩

/-- Settles O13: the word's instruction is put at the head of the queue, and the step takes it off again. -/
theorem stepRunsTheDecodedWord : Obligations.StepRunsTheDecodedWord := by
  intro nbits w i s h
  rw [withFetchWord_of_decode s h]
  exact step_of_inq_cons rfl

/-- Settles O14: a step runs an instruction or changes nothing. -/
theorem everyEventHasAStep : Obligations.EveryEventHasAStep := by
  refine ⟨exec_total, fun s => ?_⟩
  cases hq : s.inq with
  | nil => exact ⟨s, step_of_inq_nil hq⟩
  | cons i rest =>
    rw [step_of_inq_cons hq]
    exact exec_total i _

/-- Settles O15: the fields of the reset state as R35 gives them. -/
theorem resetStateIsAsTheSpecSays : Obligations.ResetStateIsAsTheSpecSays := ⟨rfl, rfl, rfl, rfl, rfl, rfl⟩

/-- Settles O16: what the reset event writes, field by field. -/
theorem resetEventGivesResetValues : Obligations.ResetEventGivesResetValues := fun s =>
  ⟨resetEvent cfg s, rfl, resetEvent_pos cfg s, resetEvent_pend cfg s, resetEvent_now cfg s, resetEvent_out cfg s,
    resetEvent_tx cfg s, resetEvent_inq cfg s⟩

end Sys2Proof.Machine
end

section
/-! Bytes received from a known position (41_frameparser.md section 2; 70_reset_and_hazards.md section 3): bytes without a start
marker, a whole well-formed frame, a failure on its first byte, and the way back to AwaitStart. -/

namespace Sys2Proof.Machine
open Safety

/-- In AwaitStart bytes other than the start marker leave no trace (R100). -/
theorem drive_of_no_marker (k : Cfg) {bs : List Byte} {s : State} (hp : s.pos = .awaitStart) (hbs : ∀ b ∈ bs, b ≠ START) :
    drive k bs s = s := by
  induction bs with
  | nil => rfl
  | cons b bs ih =>
    obtain ⟨hb, hrest⟩ := List.forall_mem_cons.mp hbs
    rw [drive, rxByte_awaitStart_other k hp hb]
    exact ih hrest

/-- The last two bytes of a frame with the right checksum complete it (R108, R110). -/
theorem drive_last_two (k : Cfg) {b : Byte} {s : State} (hp : s.pos = .awaitChecksumLsb)
    (hck : joinBytes s.rxf.ckmsb b = checksumOf s.rxf) :
    drive k [b, ENDMARK] s
      = route k { s.rxf with cklsb := b, endm := ENDMARK }
          { s with rxf := { s.rxf with cklsb := b, endm := ENDMARK }, pos := .awaitStart } := by
  rw [drive, rxByte_awaitChecksumLsb_match k hp hck, drive, drive, rxByte_awaitEnd_match k rfl]

/-- The ten bytes of an encoded frame, taken from AwaitStart: every check passes, and the frame is routed (R96, R100 to
R110). -/
theorem drive_encodeFrame (k : Cfg) (c f m l : Byte) {s : State} (hp : s.pos = .awaitStart) :
    drive k (frameBytes (encodeFrame c f m l)) s
      = route k (encodeFrame c f m l) { s with rxf := encodeFrame c f m l, pos := .awaitStart } := by
  have hck : frameChecksum (encodeFrame c f m l) = checksumOf (encodeFrame c f m l) := frameChecksum_encodeFrame c f m l
  generalize hF : encodeFrame c f m l = F at hck ⊢
  have hfields : F = ⟨START, VERSION, LENGTH, c, f, m, l, F.ckmsb, F.cklsb, ENDMARK⟩ := hF ▸ rfl
  have hsplit : frameBytes F = [START, VERSION, LENGTH, c, f, m, l, F.ckmsb] ++ [F.cklsb, ENDMARK] := by
    rw [hfields]
    rfl
  have hsum : checksumOf F = checksumOf ⟨START, VERSION, LENGTH, c, f, m, l, F.ckmsb, s.rxf.cklsb, s.rxf.endm⟩ := by
    rw [hfields]
    rfl
  rw [hsplit, drive_append, drive_to_awaitChecksumLsb k c f m l F.ckmsb hp, drive_last_two k, ← hfields]
  · rfl
  · exact hck.trans hsum

/-- A well-formed frame is the encoding of its four middle bytes, so RXFRAME of these is the frame delivered. -/
theorem exec_rxframe_of_wf {W : Frame} (hW : frameWf W = true) (s : State) :
    exec (.rxframe W.cmd W.fb W.pmsb W.plsb) s = .next (drive cfg (frameBytes W) s) := by
  have hbytes := congrArg frameBytes ((frameWf_iff_eq_encodeFrame W).mp hW)
  rw [hbytes]
  rfl

/-- The one event a frame is routed as (R173 to R176). -/
def routed (k : Cfg) (F : Frame) (s : State) : OutEvent :=
  if s.pend = true ∧ F.cmd = ERR_CODE then .qresult (.deviceError F.plsb (describe k F.plsb))
  else if s.pend = true ∧ F.cmd = s.expc then .qresult (.value (frameValue F))
  else .sink F (sinkCause k F)

/-- Routing puts out that event, and a query pending before is pending after where neither match of R173 holds. -/
theorem route_eq (k : Cfg) (F : Frame) (s : State) :
    route k F s =
      { s with pend := s.pend && !(F.cmd == ERR_CODE || F.cmd == s.expc), out := s.out ++ [routed k F s] } := by
  obtain ⟨hpend, herr, h⟩ | ⟨hpend, herr, hcode, h⟩ | ⟨hpass, h⟩ := route_cases k F s
  · simp [h, resolve, output, routed, hpend, herr]
  · simp [h, resolve, output, routed, hpend, hcode, hcode ▸ herr]
  · obtain hidle | ⟨herr, hcode⟩ := hpass
    · simp [h, output, routed, hidle]
    · simp [h, output, routed, herr, hcode]

theorem routed_ne_decodeFail (k : Cfg) (F : Frame) (s : State) (kind : FailKind) : routed k F s ≠ .decodeFail kind := by
  unfold routed
  split_ifs <;> simp

/-- Settles O17: the bytes after a reset are taken from AwaitStart. -/
theorem resetLeavesTheStreams : Obligations.ResetLeavesTheStreams := by
  intro s bs hbs
  refine ⟨resetEvent cfg s, rfl, rfl, rfl, rfl, ?_⟩
  rw [deliver_eq_drive, drive_of_no_marker cfg rfl hbs]

/-- Settles O23: the failing line of R116 for position 9. -/
theorem wrongEndMarkerDropsTheFrame : Obligations.WrongEndMarkerDropsTheFrame := fun _ _ hp hb =>
  congrArg _ (rxByte_awaitEnd_mismatch cfg hp hb)

/-- Settles O27: one driving call is the bytes one by one, and the codec's frame is the spec's. -/
theorem frameEventsAreTenBytesDelivered : Obligations.FrameEventsAreTenBytesDelivered := by
  intro c f m l s
  rw [← encodeFrame_eq_specFrame, ← encodeFrame_eq_specFrame]
  exact ⟨⟨_, rfl, deliver_eq_drive _ s⟩, ⟨_, rfl, deliver_eq_drive _ s⟩⟩

/-- Settles O28: the ten bytes pass every check, and what is put out is the routing of the frame. -/
theorem receivedFrameRoundTrip : Obligations.ReceivedFrameRoundTrip := by
  intro c f m l s hp
  have hexec : exec (.rxframe c f m l) s = .next (drive cfg (frameBytes (encodeFrame c f m l)) s) := rfl
  have hvalue : BitVec.ofNat 16 (256 * m.toNat + l.toNat) = frameValue (encodeFrame c f m l) :=
    (frameValue_eq_ofNat (encodeFrame c f m l)).symm
  rw [hexec, drive_encodeFrame cfg c f m l hp, route_eq, ← encodeFrame_eq_specFrame, hvalue, hp]
  rfl

/-- Settles O29: from AwaitStart the frame is emitted, wherever the bytes before it came from. -/
theorem resyncAfterACleanPrefix : Obligations.ResyncAfterACleanPrefix := by
  intro P W s hp hW
  refine ⟨fun s1 hs1 hp1 => ?_, fun hP => ?_⟩
  · rw [deliver_eq_drive] at hs1
    obtain rfl : drive cfg P s = s1 := Host.Outcome.next.inj hs1
    have hframe := drive_encodeFrame cfg W.cmd W.fb W.pmsb W.plsb hp1
    rw [← (frameWf_iff_eq_encodeFrame W).mp hW, route_eq] at hframe
    rw [deliver_eq_drive, drive_append, exec_rxframe_of_wf hW, hframe]
    exact ⟨rfl, _, _, rfl, rfl, routed_ne_decodeFail cfg W _, rfl, rfl⟩
  · rw [deliver_eq_drive, drive_of_no_marker cfg hp hP]

/-- A byte leaves the parser in AwaitStart, or is captured at the position it was awaited at (R116). -/
theorem rxByte_returns_or_captures (k : Cfg) (b : Byte) (s : State) :
    (rxByte k b s).pos = .awaitStart
      ∨ (posOffset (rxByte k b s).pos = posOffset s.pos + 1
        ∧ (frameBytes (rxByte k b s).rxf).take (posOffset s.pos + 1) = (frameBytes s.rxf).take (posOffset s.pos) ++ [b]) := by
  rcases rxByte_cases k b s with ⟨hp, -, h⟩ | ⟨hp, -, h⟩ | ⟨hp, -, h⟩ | ⟨-, -, h⟩ | ⟨hp, -, h⟩ | ⟨-, -, h⟩ | ⟨hp, h⟩
    | ⟨hp, h⟩ | ⟨hp, h⟩ | ⟨hp, h⟩ | ⟨hp, h⟩ | ⟨hp, -, h⟩ | ⟨-, -, h⟩ | ⟨-, -, h⟩ | ⟨-, -, h⟩
  all_goals simp [posOffset, frameBytes, route_eq, *]

theorem posOffset_le (p : Pos) : posOffset p ≤ 9 := by cases p <;> decide

/-- As many bytes as the frame in progress lacks suffice (R111). -/
theorem exists_return (k : Cfg) {bs : List Byte} {s : State} (hlen : bs.length = 10 - posOffset s.pos) :
    ∃ n, 1 ≤ n ∧ n ≤ bs.length ∧ (drive k (bs.take n) s).pos = .awaitStart := by
  induction bs generalizing s with
  | nil =>
    have hle := posOffset_le s.pos
    rw [List.length_nil] at hlen
    omega
  | cons b bs ih =>
    obtain hback | ⟨hnext, -⟩ := rxByte_returns_or_captures k b s
    · exact ⟨1, le_rfl, by simp, hback⟩
    · obtain ⟨n, -, hn, hback⟩ := ih (s := rxByte k b s) (by rw [List.length_cons] at hlen; omega)
      exact ⟨n + 1, by omega, by simpa using hn, hback⟩

/-- Settles O31: from each position the bytes the frame in progress lacks are enough. -/
theorem parserReturnsWithinTenBytes : Obligations.ParserReturnsWithinTenBytes := by
  intro s bs hlen
  obtain ⟨n, hmin, hmax, hback⟩ := exists_return cfg hlen
  exact ⟨n, _, hmin, hmax, deliver_eq_drive _ s, hback⟩

/-- The start marker of a frame that fails where it stands is consumed, and the rest of the frame, without another
marker, is discarded (R112). -/
theorem deliver_frame_of_fail {W : Frame} {s t : State} (hW : frameWf W = true)
    (hrest : ∀ b ∈ (frameBytes W).drop 1, b ≠ START) (hfail : rxByte cfg START s = t) (hp : t.pos = .awaitStart) :
    deliver (frameBytes W) s = .next t := by
  obtain ⟨hstart, -, -, -, -⟩ := (frameWf_iff W).mp hW
  have hsplit : frameBytes W = START :: (frameBytes W).drop 1 := hstart ▸ rfl
  rw [deliver_eq_drive, hsplit, drive, hfail, drive_of_no_marker cfg hp hrest]

/-- Settles O32: in each of the four positions the start marker is a failing byte. -/
theorem failureEatsTheNextStartMarker : Obligations.FailureEatsTheNextStartMarker := by
  intro W s hW hrest
  refine ⟨fun hp => ?_, fun hp => ?_, fun hp hck => ?_, fun hp => ?_⟩
  · exact deliver_frame_of_fail hW hrest (rxByte_awaitVersion_mismatch cfg hp (by decide)) rfl
  · exact deliver_frame_of_fail hW hrest (rxByte_awaitLength_mismatch cfg hp (by decide)) rfl
  · have hne := mt (joinBytes_eq_checksumOf_iff s.rxf.ckmsb START s.rxf).mp hck
    exact deliver_frame_of_fail hW hrest (rxByte_awaitChecksumLsb_mismatch cfg hp hne) rfl
  · exact deliver_frame_of_fail hW hrest (rxByte_awaitEnd_mismatch cfg hp (by decide)) rfl

end Sys2Proof.Machine
end

section
/-! What one event can do (`EventEffect`): an inversion of `exec` by the kind of the instruction, and the statements about who
writes which part of the state (10_state.md sections 2 to 5; 20_memory.md sections 1 and 10; 60_exceptions.md section 3). -/

namespace Sys2Proof.Machine
open Safety

/-! What received bytes put out (41_frameparser.md R115; 43_query_correlator.md R173). -/

/-- The results a received frame can give a query: Value and DeviceError (R174, R175). -/
def isAnswer : OutEvent → Bool
  | .qresult (.value _) | .qresult (.deviceError _ _) => true
  | _ => false

/-- What the receive unit puts out: failures, frames for the sink, answers. -/
def isReceiveOutput : OutEvent → Bool
  | .decodeFail _ | .sink _ _ => true
  | e => isAnswer e

/-- From `s` to `t` the receive unit put out `o`; `pend` was cleared with an answer or stayed as it is. -/
structure Receives (s t : State) (o : List OutEvent) : Prop where
  out : t.out = s.out ++ o
  kinds : ∀ e ∈ o, isReceiveOutput e = true
  pend : t.pend = s.pend ∨ (s.pend = true ∧ t.pend = false ∧ ∃ e ∈ o, isAnswer e = true)

theorem Receives.of_silent {s t : State} (hout : t.out = s.out) (hpend : t.pend = s.pend) : Receives s t [] :=
  ⟨by simp [hout], by simp, .inl hpend⟩

theorem Receives.of_fail {s t : State} {kind : FailKind} (hout : t.out = s.out ++ [.decodeFail kind])
    (hpend : t.pend = s.pend) : Receives s t [.decodeFail kind] :=
  ⟨hout, by simp [isReceiveOutput], .inl hpend⟩

theorem Receives.trans {s t u : State} {o o' : List OutEvent} (hst : Receives s t o) (htu : Receives t u o') :
    Receives s u (o ++ o') := by
  refine ⟨by rw [htu.out, hst.out, List.append_assoc], fun e he => ?_, ?_⟩
  · exact (List.mem_append.mp he).elim (hst.kinds e) (htu.kinds e)
  · obtain hfirst | ⟨hs, ht, e, he, hans⟩ := hst.pend <;> obtain hsecond | ⟨ht', hu, e', he', hans'⟩ := htu.pend
    · exact .inl (hsecond.trans hfirst)
    · exact .inr ⟨hfirst ▸ ht', hu, e', List.mem_append_right o he', hans'⟩
    · exact .inr ⟨hs, hsecond.trans ht, e, List.mem_append_left o' he, hans⟩
    · simp [ht] at ht'

theorem route_receives (k : Cfg) (F : Frame) (s : State) : ∃ e, Receives s (route k F s) [e] := by
  obtain ⟨hpend, -, h⟩ | ⟨hpend, -, -, h⟩ | ⟨-, h⟩ := route_cases k F s <;> rw [h]
  · exact ⟨_, rfl, by simp [isReceiveOutput, isAnswer], .inr ⟨hpend, rfl, by simp [isAnswer]⟩⟩
  · exact ⟨_, rfl, by simp [isReceiveOutput, isAnswer], .inr ⟨hpend, rfl, by simp [isAnswer]⟩⟩
  · exact ⟨_, rfl, by simp [isReceiveOutput], .inl rfl⟩

/-- One byte puts out one event at most (R116). -/
theorem rxByte_receives (k : Cfg) (b : Byte) (s : State) : ∃ o, Receives s (rxByte k b s) o ∧ o.length ≤ 1 := by
  rcases rxByte_cases k b s with ⟨-, -, h⟩ | ⟨-, -, h⟩ | ⟨-, -, h⟩ | ⟨-, -, h⟩ | ⟨-, -, h⟩ | ⟨-, -, h⟩ | ⟨-, h⟩ | ⟨-, h⟩
    | ⟨-, h⟩ | ⟨-, h⟩ | ⟨-, h⟩ | ⟨-, -, h⟩ | ⟨-, -, h⟩ | ⟨-, -, h⟩ | ⟨-, -, h⟩ <;> rw [h]
  · exact ⟨[], .of_silent rfl rfl, zero_le_one⟩
  · exact ⟨[], .of_silent rfl rfl, zero_le_one⟩
  · exact ⟨[], .of_silent rfl rfl, zero_le_one⟩
  · exact ⟨_, .of_fail rfl rfl, le_rfl⟩
  · exact ⟨[], .of_silent rfl rfl, zero_le_one⟩
  · exact ⟨_, .of_fail rfl rfl, le_rfl⟩
  · exact ⟨[], .of_silent rfl rfl, zero_le_one⟩
  · exact ⟨[], .of_silent rfl rfl, zero_le_one⟩
  · exact ⟨[], .of_silent rfl rfl, zero_le_one⟩
  · exact ⟨[], .of_silent rfl rfl, zero_le_one⟩
  · exact ⟨[], .of_silent rfl rfl, zero_le_one⟩
  · exact ⟨[], .of_silent rfl rfl, zero_le_one⟩
  · exact ⟨_, .of_fail rfl rfl, le_rfl⟩
  · obtain ⟨e, he⟩ := route_receives k { s.rxf with endm := b } { s with rxf := { s.rxf with endm := b }, pos := .awaitStart }
    exact ⟨[e], ⟨he.out, he.kinds, he.pend⟩, le_rfl⟩
  · exact ⟨_, .of_fail rfl rfl, le_rfl⟩

theorem drive_receives (k : Cfg) (bs : List Byte) (s : State) : ∃ o, Receives s (drive k bs s) o := by
  induction bs generalizing s with
  | nil => exact ⟨[], .of_silent rfl rfl⟩
  | cons b bs ih =>
    obtain ⟨o, ho, -⟩ := rxByte_receives k b s
    obtain ⟨o', ho'⟩ := ih (rxByte k b s)
    exact ⟨o ++ o', ho.trans ho'⟩

/-! The kinds of instructions. -/

/-- The bytes of `rx` an instruction delivers (20_memory.md R42; log 9). -/
def receivedBytes : Instr → Option (List Byte)
  | .rxframe c f m l => some (frameBytes (encodeFrame c f m l))
  | .rxerror f m l => some (frameBytes (encodeFrame ERR_CODE f m l))
  | .rxbyte b => some [b]
  | _ => none

theorem isSome_issueOf_of_issuesFrame {i : Instr} (h : issuesFrame cfg i = true) : (issueOf i).isSome = true := by
  unfold issuesFrame at h
  split at h
  next hissue => simp [hissue]
  next => cases h

theorem issuesFrame_eq_of_issueOf {i : Instr} {a : Action} {args : Args} (h : issueOf i = some (a, args)) :
    issuesFrame cfg i = actionValid cfg a args := by
  simp [issuesFrame, h]

theorem issuesFrame_of_issueOf_none {i : Instr} (h : issueOf i = none) : issuesFrame cfg i = false := by
  simp [issuesFrame, h]

theorem askOf_of_isSome_issueOf {i : Instr} (k : Cfg) (h : (issueOf i).isSome = true) : askOf k i = none := by
  obtain ⟨⟨a, args⟩, hissue⟩ := Option.isSome_iff_exists.mp h
  exact askOf_eq_none_of_issueOf k hissue

theorem issueOf_of_isSome_askOf {i : Instr} {k : Cfg} (h : (askOf k i).isSome = true) : issueOf i = none := by
  cases hissue : issueOf i with
  | none => rfl
  | some p => simp [askOf_of_isSome_issueOf k (by simp [hissue] : (issueOf i).isSome = true)] at h

theorem issueOf_of_receivedBytes {i : Instr} {bs : List Byte} (h : receivedBytes i = some bs) : issueOf i = none := by
  cases i <;> cases h <;> rfl

theorem askOf_of_receivedBytes {i : Instr} {bs : List Byte} (k : Cfg) (h : receivedBytes i = some bs) : askOf k i = none := by
  cases i <;> cases h <;> rfl

/-- The state after an accepted query (43_query_correlator.md R171), as the model has it. -/
def registered (q m l : Byte) (tm : Nat) (s : State) : State :=
  { sendFrame (encodeFrame q cfg.fbDefault m l) s with
    pend := true, expc := cfg.expect q, tstart := s.now, tmo := truncTicks cfg tm }

/-- What an instruction does to a state, by its kind. -/
inductive EventEffect (i : Instr) (s : State) : State → Prop
  /-- a valid control action (42_catalog_dispatch.md R124) -/
  | sent (c m l : Byte) (hi : issuesFrame cfg i = true) : EventEffect i s (sendFrame (encodeFrame c cfg.fbDefault m l) s)
  /-- an invalid one (R122) -/
  | unsent (hi : (issueOf i).isSome = true) (hinvalid : issuesFrame cfg i = false) : EventEffect i s s
  /-- a query while one is pending (43_query_correlator.md R170) -/
  | busy (hi : (askOf cfg i).isSome = true) (hpend : s.pend = true) : EventEffect i s (output (.qresult .busy) s)
  /-- a query accepted (R171) -/
  | asked {q m l : Byte} {tm : Nat} (hi : askOf cfg i = some (q, m, l, tm)) (hpend : s.pend = false) :
    EventEffect i s (registered q m l tm s)
  /-- bytes received (41_frameparser.md R100 to R110) -/
  | received {bs : List Byte} (hi : receivedBytes i = some bs) : EventEffect i s (drive cfg bs s)
  /-- a tick that meets the deadline (43_query_correlator.md R179) -/
  | timedOut (hi : i = .tick) (hpend : s.pend = true)
    (hdue : s.tmo ≤ elapsedTicks cfg (truncTicks cfg (s.now + 1)) s.tstart) :
    EventEffect i s (resolve .timeout { s with now := truncTicks cfg (s.now + 1) })
  /-- any other tick (R178) -/
  | ticked (hi : i = .tick) (hnot : ¬(s.pend = true ∧ s.tmo ≤ elapsedTicks cfg (truncTicks cfg (s.now + 1)) s.tstart)) :
    EventEffect i s { s with now := truncTicks cfg (s.now + 1) }
  /-- a reset (70_reset_and_hazards.md R240) -/
  | reset (hi : i = .reset) : EventEffect i s (resetEvent cfg s)

/-- Every event has one of these effects. -/
theorem eventEffect_of_exec {i : Instr} {s t : State} (hexec : exec i s = .next t) : EventEffect i s t := by
  obtain ⟨a, args, hi, h⟩ | ⟨q, m, l, tm, hi, h⟩ | ⟨c, f, m, l, rfl, h⟩ | ⟨f, m, l, rfl, h⟩ | ⟨b, rfl, h⟩ | ⟨hi, h⟩
    | ⟨hi, h⟩ := exec_cases i s <;> obtain rfl := Host.Outcome.next.inj (h.symm.trans hexec)
  · have hissues := issuesFrame_eq_of_issueOf hi
    rw [issue_eq]
    split
    next hvalid => exact .sent _ _ _ (hissues.trans hvalid)
    next hinvalid => exact .unsent (by simp [hi]) (hissues.trans (Bool.eq_false_iff.mpr hinvalid))
  · cases hpend : s.pend with
    | true => exact ask_of_pending cfg q m l tm hpend ▸ .busy (by simp [hi]) hpend
    | false => exact ask_of_idle cfg q m l tm hpend ▸ .asked hi hpend
  · exact .received rfl
  · exact .received rfl
  · exact .received (bs := [b]) rfl
  · obtain ⟨hpend, hdue, ht⟩ | ⟨hnot, ht⟩ := tickEvent_cases cfg s <;> rw [ht]
    · exact .timedOut hi hpend hdue
    · exact .ticked hi hnot
  · exact .reset hi

/-- Settles O45: the two wrappers that take a medium are `Ask` events. -/
theorem mediumWrappersSendTheirQuery : Obligations.MediumWrappersSendTheirQuery := by
  intro t med s ht
  constructor
  · intro hpend
    exact ⟨exec_of_askOf_idle rfl ht hpend, exec_of_askOf_idle rfl ht hpend⟩
  · intro hpend
    exact ⟨exec_of_askOf_pending rfl hpend, exec_of_askOf_pending rfl hpend⟩

/-- Settles O53: of the effects of an event two append a frame, and they are the two the statement names. -/
theorem txGrowsOnlyByIssueOrAcceptedAsk : Obligations.TxGrowsOnlyByIssueOrAcceptedAsk := by
  intro i s t hexec
  cases eventEffect_of_exec hexec with
  | sent c m l hi => exact ⟨fun _ => ⟨_, frameWf_encodeFrame .., rfl, rfl, rfl⟩, fun hnot => absurd (.inl hi) hnot⟩
  | unsent hi hinvalid =>
    exact ⟨by simp [hinvalid, askOf_of_isSome_issueOf cfg hi], fun _ => rfl⟩
  | busy hi hpend =>
    have hissues := issuesFrame_of_issueOf_none (issueOf_of_isSome_askOf hi)
    exact ⟨by simp [hissues, hpend], fun _ => rfl⟩
  | asked hi hpend =>
    exact ⟨fun _ => ⟨_, frameWf_encodeFrame .., rfl, rfl, rfl⟩, fun hnot => absurd (.inr ⟨by simp [hi], hpend⟩) hnot⟩
  | received hi =>
    obtain ⟨-, -, -, -, htx, -⟩ := drive_frame cfg _ s
    have hissues := issuesFrame_of_issueOf_none (issueOf_of_receivedBytes hi)
    exact ⟨by simp [hissues, askOf_of_receivedBytes cfg hi], fun _ => htx⟩
  | timedOut hi =>
    subst hi
    exact ⟨by simp [issuesFrame, issueOf, askOf], fun _ => rfl⟩
  | ticked hi =>
    subst hi
    exact ⟨by simp [issuesFrame, issueOf, askOf], fun _ => rfl⟩
  | reset hi =>
    subst hi
    exact ⟨by simp [issuesFrame, issueOf, askOf], fun _ => rfl⟩

/-- The bytes a host operation appends to `tx` are a function of the instruction, the configuration and `pend`; the receive
unit is left as it is (20_memory.md R54). -/
theorem exec_hostOperation {i : Instr} (h : (issueOf i).isSome = true ∨ (askOf cfg i).isSome = true) (p : Bool) :
    ∃ bs, ∀ s t : State, s.pend = p → exec i s = .next t → t.tx = s.tx ++ bs ∧ t.pos = s.pos ∧ t.rxf = s.rxf := by
  obtain hissue | hask := h
  · obtain ⟨⟨a, args⟩, hi⟩ := Option.isSome_iff_exists.mp hissue
    by_cases hvalid : actionValid cfg a args = true
    · refine ⟨frameBytes (specFrame (actionCode cfg a) cfg.fbDefault (params cfg a args).1 (params cfg a args).2),
        fun s t _ hexec => ?_⟩
      obtain rfl := Host.Outcome.next.inj ((exec_of_valid hi hvalid s).symm.trans hexec)
      exact ⟨rfl, rfl, rfl⟩
    · refine ⟨[], fun s t _ hexec => ?_⟩
      obtain rfl := Host.Outcome.next.inj ((exec_of_invalid hi hvalid s).symm.trans hexec)
      simp
  · obtain ⟨⟨q, m, l, tm⟩, hi⟩ := Option.isSome_iff_exists.mp hask
    cases p with
    | true =>
      refine ⟨[], fun s t hpend hexec => ?_⟩
      obtain rfl := Host.Outcome.next.inj ((exec_of_askOf hi s).symm.trans hexec)
      simp [ask_of_pending cfg q m l tm hpend]
    | false =>
      refine ⟨frameBytes (encodeFrame q cfg.fbDefault m l), fun s t hpend hexec => ?_⟩
      obtain rfl := Host.Outcome.next.inj ((exec_of_askOf hi s).symm.trans hexec)
      simp [ask_of_idle cfg q m l tm hpend]

/-- Settles O55: the transmit direction, then the receive direction. -/
theorem directionsAreIndependent : Obligations.DirectionsAreIndependent := by
  constructor
  · intro i s s' t t' hi hpend hexec hexec'
    obtain ⟨bs, hbs⟩ := exec_hostOperation hi s.pend
    obtain ⟨htx, hpos, hrxf⟩ := hbs s t rfl hexec
    obtain ⟨htx', -, -⟩ := hbs s' t' hpend.symm hexec'
    exact ⟨⟨bs, htx, htx'⟩, hpos, hrxf⟩
  · have receiving {i : Instr} {bs : List Byte} (hi : ∀ s, exec i s = .next (drive cfg bs s)) {s t : State}
        (hexec : exec i s = .next t) : t.tx = s.tx := by
      obtain rfl := Host.Outcome.next.inj ((hi s).symm.trans hexec)
      obtain ⟨-, -, -, -, htx, -⟩ := drive_frame cfg bs s
      exact htx
    rintro c f m l b s t (h | h | h)
    · exact receiving (fun _ => rfl) h
    · exact receiving (fun _ => rfl) h
    · exact receiving (bs := [b]) (fun _ => rfl) h

/-- Settles O56: each effect's own writes, register by register. -/
theorem whoWritesWhichRegister : Obligations.WhoWritesWhichRegister := by
  intro i s t hexec hreset
  cases eventEffect_of_exec hexec with
  | sent c m l hi =>
    have htick : i ≠ .tick := by rintro rfl; cases hi
    exact ⟨(if_neg htick).symm, fun _ => ⟨rfl, rfl, rfl⟩, fun _ _ _ => ⟨rfl, rfl⟩, rfl, rfl⟩
  | unsent hi =>
    have htick : i ≠ .tick := by rintro rfl; cases hi
    exact ⟨(if_neg htick).symm, fun _ => ⟨rfl, rfl, rfl⟩, fun _ _ _ => ⟨rfl, rfl⟩, rfl, rfl⟩
  | busy hi =>
    have htick : i ≠ .tick := by rintro rfl; cases hi
    exact ⟨(if_neg htick).symm, fun _ => ⟨rfl, rfl, rfl⟩, fun _ _ _ => ⟨rfl, rfl⟩, rfl, rfl⟩
  | asked hi hpend =>
    have htick : i ≠ .tick := by rintro rfl; cases hi
    exact ⟨(if_neg htick).symm, fun hnot => absurd ⟨by simp [hi], hpend⟩ hnot, fun _ _ _ => ⟨rfl, rfl⟩, rfl, rfl⟩
  | received hi =>
    have htick : i ≠ .tick := by rintro rfl; cases hi
    obtain ⟨hexpc, htstart, htmo, hnow, -, hinq, hfree⟩ := drive_frame cfg _ s
    refine ⟨hnow.trans (if_neg htick).symm, fun _ => ⟨hexpc, htstart, htmo⟩, fun hbyte hframe herror => ?_, hinq, hfree⟩
    cases i
    case rxframe c f m l => exact absurd rfl (hframe c f m l)
    case rxerror f m l => exact absurd rfl (herror f m l)
    case rxbyte b => exact absurd rfl (hbyte b)
    all_goals cases hi
  | timedOut hi => exact ⟨(if_pos hi).symm, fun _ => ⟨rfl, rfl, rfl⟩, fun _ _ _ => ⟨rfl, rfl⟩, rfl, rfl⟩
  | ticked hi => exact ⟨(if_pos hi).symm, fun _ => ⟨rfl, rfl, rfl⟩, fun _ _ _ => ⟨rfl, rfl⟩, rfl, rfl⟩
  | reset hi => exact absurd hi hreset

/-- An answer resolves the query it is given to (R190). -/
theorem resolving_of_isAnswer {e : OutEvent} (h : isAnswer e = true) : resolving e = true := by
  unfold isAnswer at h
  split at h
  · rfl
  · rfl
  · cases h

/-- Settles O57: one effect sets `pend`; three clear it, by an answer, by Timeout or by reset. -/
theorem pendIsSetOnlyByAQuery : Obligations.PendIsSetOnlyByAQuery := by
  intro i s t hexec
  have kept (hsame : t.pend = s.pend) : (s.pend = false → t.pend = true → (askOf cfg i).isSome = true)
      ∧ (s.pend = true → t.pend = false → i = .reset ∨ ∃ o, t.out = s.out ++ o ∧ ∃ e ∈ o, resolving e = true) := by
    rw [hsame]
    exact ⟨fun hs ht => by simp [hs] at ht, fun hs ht => by simp [hs] at ht⟩
  cases eventEffect_of_exec hexec with
  | sent => exact kept rfl
  | unsent => exact kept rfl
  | busy => exact kept rfl
  | asked hi => exact ⟨fun _ _ => by simp [hi], fun _ ht => (by cases ht)⟩
  | received =>
    obtain ⟨o, hout, -, hsame | ⟨hbefore, -, e, he, hans⟩⟩ := drive_receives cfg _ s
    · exact kept hsame
    · exact ⟨fun hs => by simp [hbefore] at hs, fun _ _ => .inr ⟨o, hout, e, he, resolving_of_isAnswer hans⟩⟩
  | timedOut =>
    exact ⟨fun _ ht => (by cases ht), fun _ _ => .inr ⟨_, rfl, _, List.mem_singleton.mpr rfl, rfl⟩⟩
  | ticked => exact kept rfl
  | reset hi => exact ⟨fun _ ht => (by cases ht), fun _ _ => .inl hi⟩

/-- Both observations only grow (10_state.md R32; log 3). -/
theorem exec_grows {i : Instr} {s t : State} (hexec : exec i s = .next t) :
    (∃ o, t.out = s.out ++ o) ∧ ∃ bs, t.tx = s.tx ++ bs := by
  cases eventEffect_of_exec hexec with
  | sent => exact ⟨⟨_, rfl⟩, ⟨_, rfl⟩⟩
  | unsent => exact ⟨⟨[], by simp⟩, ⟨[], by simp⟩⟩
  | busy => exact ⟨⟨_, rfl⟩, ⟨[], by simp⟩⟩
  | asked => exact ⟨⟨_, rfl⟩, ⟨_, rfl⟩⟩
  | @received bs =>
    obtain ⟨o, ho⟩ := drive_receives cfg bs s
    obtain ⟨-, -, -, -, htx, -⟩ := drive_frame cfg bs s
    exact ⟨⟨o, ho.out⟩, ⟨[], by simp [htx]⟩⟩
  | timedOut => exact ⟨⟨_, rfl⟩, ⟨[], by simp⟩⟩
  | ticked => exact ⟨⟨[], by simp⟩, ⟨[], by simp⟩⟩
  | reset => exact ⟨⟨[], by simp⟩, ⟨[], by simp⟩⟩

/-- Settles O58: no effect but a driving call puts out more than one event, and a driving call of one byte does not. -/
theorem oneEventRaisesAtMostOneOutput : Obligations.OneEventRaisesAtMostOneOutput := by
  intro i s t hexec hframe herror
  obtain ⟨-, htx⟩ := exec_grows hexec
  refine ⟨?_, htx⟩
  cases eventEffect_of_exec hexec with
  | sent => exact ⟨_, rfl, le_rfl⟩
  | unsent => exact ⟨[], by simp, zero_le_one⟩
  | busy => exact ⟨_, rfl, le_rfl⟩
  | asked => exact ⟨_, rfl, le_rfl⟩
  | received hi =>
    cases i
    case rxbyte b =>
      cases hi
      obtain ⟨o, ho, hlen⟩ := rxByte_receives cfg b s
      exact ⟨o, ho.out, hlen⟩
    case rxframe c f m l => exact absurd rfl (hframe c f m l)
    case rxerror f m l => exact absurd rfl (herror f m l)
    all_goals cases hi
  | timedOut => exact ⟨_, rfl, le_rfl⟩
  | ticked => exact ⟨[], by simp, zero_le_one⟩
  | reset => exact ⟨[], by simp, zero_le_one⟩

end Sys2Proof.Machine
end

section
/-! The invariant (10_state.md R33; 20_memory.md R44, R48): its parser part under a received byte, its stream part under each way
to put something out, and so under every event. -/

namespace Sys2Proof.Machine
open Safety

/-! The captured bytes (R33). -/

theorem parserInv_of_awaitStart {s : State} (hp : s.pos = .awaitStart) : ParserInv s := by
  simp [ParserInv, hp, posOffset]

/-- Each captured byte has passed its check before the next position is reached (R100 to R110). -/
theorem rxByte_keeps_parserInv (k : Cfg) (b : Byte) {s : State} (h : ParserInv s) : ParserInv (rxByte k b s) := by
  obtain ⟨hstart, hver, hlen, hck⟩ := h
  cases hp : s.pos <;> rw [hp] at hstart hver hlen hck
  case awaitStart =>
    by_cases hb : b = START
    · rw [hb, rxByte_awaitStart_marker k hp]
      exact ⟨fun _ => rfl, by simp [posOffset], by simp [posOffset], nofun⟩
    · rw [rxByte_awaitStart_other k hp hb]
      exact parserInv_of_awaitStart hp
  case awaitVersion =>
    by_cases hb : b = VERSION
    · rw [hb, rxByte_awaitVersion_match k hp]
      exact ⟨fun _ => hstart (by decide), fun _ => rfl, by simp [posOffset], nofun⟩
    · rw [rxByte_awaitVersion_mismatch k hp hb]
      exact parserInv_of_awaitStart rfl
  case awaitLength =>
    by_cases hb : b = LENGTH
    · rw [hb, rxByte_awaitLength_match k hp]
      exact ⟨fun _ => hstart (by decide), fun _ => hver (by decide), fun _ => rfl, nofun⟩
    · rw [rxByte_awaitLength_mismatch k hp hb]
      exact parserInv_of_awaitStart rfl
  case awaitChecksumLsb =>
    by_cases hb : joinBytes s.rxf.ckmsb b = checksumOf s.rxf
    · rw [rxByte_awaitChecksumLsb_match k hp hb]
      exact ⟨fun _ => hstart (by decide), fun _ => hver (by decide), fun _ => hlen (by decide), fun _ => hb⟩
    · rw [rxByte_awaitChecksumLsb_mismatch k hp hb]
      exact parserInv_of_awaitStart rfl
  case awaitEnd =>
    by_cases hb : b = ENDMARK
    · rw [hb, rxByte_awaitEnd_match k hp, route_eq]
      exact parserInv_of_awaitStart rfl
    · rw [rxByte_awaitEnd_mismatch k hp hb]
      exact parserInv_of_awaitStart rfl
  case awaitCommand | awaitFeedback | awaitParamMsb | awaitParamLsb | awaitChecksumMsb =>
    simp only [hp, rxByte_awaitCommand, rxByte_awaitFeedback, rxByte_awaitParamMsb, rxByte_awaitParamLsb,
      rxByte_awaitChecksumMsb]
    exact ⟨fun _ => hstart (by decide), fun _ => hver (by decide), fun _ => hlen (by decide), nofun⟩

/-- The frame that the end marker completes is well-formed (R109). -/
theorem frameWf_of_awaitEnd {s : State} (h : ParserInv s) (hp : s.pos = .awaitEnd) :
    frameWf { s.rxf with endm := ENDMARK } = true := by
  obtain ⟨hstart, hver, hlen, hck⟩ := h
  rw [hp] at hstart hver hlen
  exact (frameWf_iff _).mpr ⟨hstart (by decide), hver (by decide), hlen (by decide), rfl, hck hp⟩

/-! The streams (20_memory.md R44, R48). -/

/-- Outputs that are no transmissions leave `tx` in step with the outputs. -/
theorem StreamInv_append {s t : State} {o : List OutEvent} (h : StreamInv s) (htx : t.tx = s.tx) (hout : t.out = s.out ++ o)
    (hsilent : ∀ e ∈ o, txBytes e = []) (hok : ∀ e ∈ o, OutputOk e) : StreamInv t := by
  obtain ⟨hagree, hall⟩ := h
  refine ⟨?_, fun e he => ?_⟩
  · rw [htx, hout, List.flatMap_append, List.flatMap_eq_nil_iff.mpr hsilent, List.append_nil, hagree]
  · rw [hout] at he
    exact (List.mem_append.mp he).elim (hall e) (hok e)

theorem StreamInv_output {s : State} {e : OutEvent} (h : StreamInv s) (hsilent : txBytes e = []) (hok : OutputOk e) :
    StreamInv (output e s) :=
  StreamInv_append h rfl rfl (by simpa using hsilent) (by simpa using hok)

/-- A frame sent goes to both streams at once (R44). -/
theorem StreamInv_sendFrame {s : State} {F : Frame} (h : StreamInv s) (hF : frameWf F = true) (hfb : F.fb = cfg.fbDefault) :
    StreamInv (sendFrame F s) := by
  obtain ⟨hagree, hall⟩ := h
  refine ⟨?_, fun e he => ?_⟩
  · simp [hagree, txBytes]
  · rw [sendFrame_out, List.mem_append, List.mem_singleton] at he
    obtain hold | rfl := he
    · exact hall e hold
    · exact ⟨hF, hfb⟩

/-- What is routed is a transmission in no case, and the sink gets a well-formed frame with the cause of R176. -/
theorem route_keeps_streamInv {s : State} {F : Frame} (h : StreamInv s) (hF : frameWf F = true) :
    StreamInv (route cfg F s) := by
  obtain ⟨-, -, hr⟩ | ⟨-, -, -, hr⟩ | ⟨-, hr⟩ := route_cases cfg F s <;> rw [hr]
  · exact StreamInv_append h rfl rfl (by simp [txBytes]) (by simp [OutputOk])
  · exact StreamInv_append h rfl rfl (by simp [txBytes]) (by simp [OutputOk])
  · exact StreamInv_output h rfl ⟨hF, rfl⟩

theorem rxByte_keeps_streamInv (b : Byte) {s : State} (hparser : ParserInv s) (h : StreamInv s) :
    StreamInv (rxByte cfg b s) := by
  by_cases hp : s.pos = .awaitEnd
  · by_cases hb : b = ENDMARK
    · rw [hb, rxByte_awaitEnd_match cfg hp]
      exact route_keeps_streamInv (s := { s with rxf := { s.rxf with endm := ENDMARK }, pos := .awaitStart }) h
        (frameWf_of_awaitEnd hparser hp)
    · rw [rxByte_awaitEnd_mismatch cfg hp hb]
      exact StreamInv_append h rfl rfl (by simp [txBytes]) (by simp [OutputOk])
  · obtain ⟨⟨⟨o, hout, hfails⟩, -⟩, -⟩ := rxByte_before_awaitEnd cfg b hp
    obtain ⟨-, -, -, -, htx, -⟩ := rxByte_frame cfg b s
    refine StreamInv_append h htx hout (fun e he => ?_) (fun e he => ?_)
    · obtain ⟨kind, rfl⟩ := hfails e he
      rfl
    · obtain ⟨kind, rfl⟩ := hfails e he
      trivial

/-! Every event. -/

theorem rxByte_keeps_inv (b : Byte) {s : State} (h : Inv s) : Inv (rxByte cfg b s) := by
  obtain ⟨hparser, ⟨hnow, htstart, htmo⟩, hstream⟩ := h
  obtain ⟨-, hts, htm, hn, -⟩ := rxByte_frame cfg b s
  exact ⟨rxByte_keeps_parserInv cfg b hparser, ⟨hn ▸ hnow, hts ▸ htstart, htm ▸ htmo⟩,
    rxByte_keeps_streamInv b hparser hstream⟩

theorem drive_keeps_inv (bs : List Byte) {s : State} (h : Inv s) : Inv (drive cfg bs s) := by
  induction bs generalizing s with
  | nil => exact h
  | cons b bs ih => exact ih (rxByte_keeps_inv b h)

theorem exec_keeps_inv {i : Instr} {s t : State} (h : Inv s) (hexec : exec i s = .next t) : Inv t := by
  obtain ⟨hparser, ⟨hnow, htstart, htmo⟩, hstream⟩ := h
  cases eventEffect_of_exec hexec with
  | sent => exact ⟨hparser, ⟨hnow, htstart, htmo⟩, StreamInv_sendFrame hstream (frameWf_encodeFrame ..) rfl⟩
  | unsent => exact ⟨hparser, ⟨hnow, htstart, htmo⟩, hstream⟩
  | busy => exact ⟨hparser, ⟨hnow, htstart, htmo⟩, StreamInv_output hstream rfl trivial⟩
  | asked =>
    exact ⟨hparser, ⟨hnow, hnow, truncTicks_lt ..⟩, StreamInv_sendFrame hstream (frameWf_encodeFrame ..) rfl⟩
  | @received bs => exact drive_keeps_inv bs ⟨hparser, ⟨hnow, htstart, htmo⟩, hstream⟩
  | timedOut => exact ⟨hparser, ⟨truncTicks_lt .., htstart, htmo⟩, StreamInv_output hstream rfl trivial⟩
  | ticked => exact ⟨hparser, ⟨truncTicks_lt .., htstart, htmo⟩, hstream⟩
  | reset =>
    exact ⟨parserInv_of_awaitStart rfl, ⟨Nat.two_pow_pos _, truncTicks_lt .., truncTicks_lt ..⟩, hstream⟩

/-- Settles O51: taking the event touches nothing the invariant speaks of, and every event keeps it. -/
theorem everyStepKeepsTheInvariant : Obligations.EveryStepKeepsTheInvariant := by
  intro s t h hstep
  cases hq : s.inq with
  | nil =>
    obtain rfl := Host.Outcome.next.inj ((step_of_inq_nil hq).symm.trans hstep)
    exact h
  | cons i rest =>
    have hrest : Inv { s with inq := rest } := h
    exact exec_keeps_inv hrest ((step_of_inq_cons hq).symm.trans hstep)

/-- Settles O52: at reset no byte is captured, the counts are zero and nothing was put out. -/
theorem resetStateMeetsTheInvariant : Obligations.ResetStateMeetsTheInvariant :=
  ⟨parserInv_of_awaitStart rfl, ⟨Nat.two_pow_pos _, Nat.two_pow_pos _, Nat.two_pow_pos _⟩, rfl, by simp [State.reset]⟩

end Sys2Proof.Machine
end

section
/-! Listening into a stream of well-formed frames (95_test_vectors.md V35; 70_reset_and_hazards.md section 3): what the parser
emits are ten consecutive bytes of the stream, and ten consecutive bytes that are well-formed lie on one of its frames. -/

namespace Sys2Proof.Machine
open Safety

/-! The bytes in progress. -/

/-- The bytes received so far end in the ones captured for the frame in progress. -/
def InProgress (past : List Byte) (s : State) : Prop :=
  ∃ older, past = older ++ (frameBytes s.rxf).take (posOffset s.pos)

theorem inProgress_of_awaitStart (past : List Byte) {s : State} (hp : s.pos = .awaitStart) : InProgress past s :=
  ⟨past, by simp [hp, posOffset]⟩

theorem rxByte_inProgress (k : Cfg) (b : Byte) {past : List Byte} {s : State} (h : InProgress past s) :
    InProgress (past ++ [b]) (rxByte k b s) := by
  obtain hback | ⟨hnext, hcaptured⟩ := rxByte_returns_or_captures k b s
  · exact inProgress_of_awaitStart _ hback
  · obtain ⟨older, rfl⟩ := h
    exact ⟨older, by rw [hnext, hcaptured, List.append_assoc]⟩

/-- The end marker completes the frame that the last ten bytes are. -/
theorem inProgress_awaitEnd {past : List Byte} {s : State} (h : InProgress past s) (hp : s.pos = .awaitEnd) :
    ∃ older, past ++ [ENDMARK] = older ++ frameBytes { s.rxf with endm := ENDMARK } := by
  obtain ⟨older, rfl⟩ := h
  refine ⟨older, ?_⟩
  rw [hp, List.append_assoc]
  rfl

/-! What is emitted. -/

/-- The event reports a failure, or a well-formed frame that stands in `bs`. -/
def IsFrameOf (bs : List Byte) (e : OutEvent) : Prop :=
  (∃ kind, e = .decodeFail kind) ∨ ∃ F cause, frameWf F = true ∧ frameBytes F <:+: bs ∧ e = .sink F cause

theorem IsFrameOf.append {bs : List Byte} {e : OutEvent} (h : IsFrameOf bs e) (cs : List Byte) : IsFrameOf (bs ++ cs) e := by
  obtain hfail | ⟨F, cause, hF, ⟨before, after, rfl⟩, he⟩ := h
  · exact .inl hfail
  · exact .inr ⟨F, cause, hF, ⟨before, after ++ cs, by rw [List.append_assoc _ after]⟩, he⟩

/-- With no query pending a byte puts out failures and frames just received only, and none is pending after it. -/
theorem rxByte_isFrameOf (k : Cfg) (b : Byte) {past : List Byte} {s : State} (hpend : s.pend = false)
    (hparser : ParserInv s) (h : InProgress past s) :
    (rxByte k b s).pend = false ∧ ∃ o, (rxByte k b s).out = s.out ++ o ∧ ∀ e ∈ o, IsFrameOf (past ++ [b]) e := by
  by_cases hend : s.pos = .awaitEnd ∧ b = ENDMARK
  · obtain ⟨hp, rfl⟩ := hend
    obtain ⟨older, hbytes⟩ := inProgress_awaitEnd h hp
    rw [rxByte_awaitEnd_match k hp, route_of_other k]
    · refine ⟨hpend, _, rfl, fun e he => .inr ⟨_, _, frameWf_of_awaitEnd hparser hp, ?_, List.mem_singleton.mp he⟩⟩
      exact ⟨older, [], by rw [List.append_nil, hbytes]⟩
    · exact .inl hpend
  · have hfails : OnlyDecodeFails s (rxByte k b s) := by
      by_cases hp : s.pos = .awaitEnd
      · rw [rxByte_awaitEnd_mismatch k hp fun hb => hend ⟨hp, hb⟩]
        exact .of_fail rfl rfl
      · exact (rxByte_before_awaitEnd k b hp).1
    obtain ⟨⟨o, hout, hkinds⟩, hsame⟩ := hfails
    exact ⟨hsame.trans hpend, o, hout, fun e he => .inl (hkinds e he)⟩

theorem drive_isFrameOf (k : Cfg) (bs : List Byte) {past : List Byte} {s : State} (hpend : s.pend = false)
    (hparser : ParserInv s) (h : InProgress past s) :
    ∃ o, (drive k bs s).out = s.out ++ o ∧ ∀ e ∈ o, IsFrameOf (past ++ bs) e := by
  induction bs generalizing past s with
  | nil => exact ⟨[], by simp [drive], by simp⟩
  | cons b bs ih =>
    obtain ⟨hpend', o, hout, hfirst⟩ := rxByte_isFrameOf k b hpend hparser h
    obtain ⟨o', hout', hrest⟩ := ih hpend' (rxByte_keeps_parserInv k b hparser) (rxByte_inProgress k b h)
    have hbytes : past ++ b :: bs = past ++ [b] ++ bs := by simp
    refine ⟨o ++ o', by rw [drive, hout', hout, List.append_assoc], fun e he => ?_⟩
    rw [hbytes]
    exact (List.mem_append.mp he).elim (fun h => (hfirst e h).append bs) (hrest e)

/-! Well-formed frames in a stream of such frames. -/

theorem ckmsb_bounds_of_wf {F : Frame} (hF : frameWf F = true) : 0xFA ≤ F.ckmsb.toNat ∧ F.ckmsb.toNat ≤ 0xFE := by
  rw [(frameWf_iff_eq_encodeFrame F).mp hF]
  exact encodeFrame_ckmsb_bounds ..

/-- A well-formed frame does not straddle two others: wherever the second begins, a constant of the one meets another
constant of the other, or a high checksum byte, which is none of the constants. -/
theorem not_straddles {F V W : Frame} (hF : frameWf F = true) (hV : frameWf V = true) (hW : frameWf W = true) {j : Nat}
    (h1 : 1 ≤ j) (h9 : j ≤ 9) : frameBytes F ≠ (frameBytes V).drop j ++ (frameBytes W).take j := by
  intro h
  have byte (n : Nat) := congrArg (fun bs => bs[n]?) h
  obtain ⟨hFstart, hFver, hFlen, hFend, -⟩ := (frameWf_iff F).mp hF
  obtain ⟨-, hVver, hVlen, hVend, -⟩ := (frameWf_iff V).mp hV
  obtain ⟨-, hWver, hWlen, -, -⟩ := (frameWf_iff W).mp hW
  obtain ⟨hFmin, hFmax⟩ := ckmsb_bounds_of_wf hF
  obtain ⟨hVmin, hVmax⟩ := ckmsb_bounds_of_wf hV
  interval_cases j
  · have hmeet : F.start = V.ver := Option.some.inj (byte 0)
    rw [hFstart, hVver] at hmeet
    exact absurd hmeet (by decide)
  · have hmeet : F.start = V.len := Option.some.inj (byte 0)
    rw [hFstart, hVlen] at hmeet
    exact absurd hmeet (by decide)
  · have hmeet : F.endm = W.len := Option.some.inj (byte 9)
    rw [hFend, hWlen] at hmeet
    exact absurd hmeet (by decide)
  · have hmeet : F.ckmsb = W.ver := Option.some.inj (byte 7)
    rw [hmeet, hWver] at hFmax
    exact absurd hFmax (by decide)
  · have hmeet : F.len = V.ckmsb := Option.some.inj (byte 2)
    rw [← hmeet, hFlen] at hVmin
    exact absurd hVmin (by decide)
  · have hmeet : F.ver = V.ckmsb := Option.some.inj (byte 1)
    rw [← hmeet, hFver] at hVmax
    exact absurd hVmax (by decide)
  · have hmeet : F.start = V.ckmsb := Option.some.inj (byte 0)
    rw [← hmeet, hFstart] at hVmin
    exact absurd hVmin (by decide)
  · have hmeet : F.ver = V.endm := Option.some.inj (byte 1)
    rw [hFver, hVend] at hmeet
    exact absurd hmeet (by decide)
  · have hmeet : F.start = V.endm := Option.some.inj (byte 0)
    rw [hFstart, hVend] at hmeet
    exact absurd hmeet (by decide)

/-- Ten consecutive bytes of the stream that are a well-formed frame are one of its frames. -/
theorem mem_of_stream {F : Frame} (hF : frameWf F = true) {Ws : List Frame} (hWs : ∀ W ∈ Ws, frameWf W = true)
    {before after : List Byte} (h : Ws.flatMap frameBytes = before ++ (frameBytes F ++ after)) : F ∈ Ws := by
  induction Ws generalizing before with
  | nil => simp [frameBytes] at h
  | cons V Ws ih =>
    obtain ⟨hV, hrest⟩ := List.forall_mem_cons.mp hWs
    rw [List.flatMap_cons] at h
    obtain ⟨skipped, rfl, hlate⟩ | ⟨rest, hsplit, hwindow⟩ := List.append_eq_append_iff.mp h
    · exact List.mem_cons_of_mem V (ih hrest hlate)
    · have hlength : before.length + rest.length = 10 := by
        rw [← List.length_append, ← hsplit]
        rfl
      have hdrop : rest = (frameBytes V).drop before.length := by rw [hsplit, List.drop_left]
      have hF' : frameBytes F = rest ++ (Ws.flatMap frameBytes).take before.length := by
        have htake := congrArg (List.take 10) hwindow
        rwa [List.take_left' (show (frameBytes F).length = 10 from rfl), List.take_append,
          List.take_of_length_le (show rest.length ≤ 10 by omega), show 10 - rest.length = before.length by omega] at htake
      obtain hzero | hten | ⟨h1, h9⟩ : before.length = 0 ∨ before.length = 10 ∨ 1 ≤ before.length ∧ before.length ≤ 9 := by
        omega
      · rw [hdrop, hzero, List.drop_zero, List.take_zero, List.append_nil] at hF'
        obtain rfl : F = V := frameBytes_injective hF'
        exact List.mem_cons_self
      · obtain rfl : rest = [] := List.length_eq_zero_iff.mp (by omega)
        exact List.mem_cons_of_mem V (ih (before := []) hrest hwindow.symm)
      · cases Ws with
        | nil =>
          have hshort := congrArg List.length hF'
          simp [FRAME_BYTES] at hshort
          omega
        | cons W Ws =>
          obtain ⟨hW, -⟩ := List.forall_mem_cons.mp hrest
          rw [List.flatMap_cons, List.take_append_of_le_length (by simp [FRAME_BYTES]; omega), hdrop] at hF'
          exact absurd hF' (not_straddles hF hV hW h1 h9)

/-- Settles O33: a frame put out stands in the stream, and so is one of its frames. -/
theorem cleanStreamHasNoSpuriousFrame : Obligations.CleanStreamHasNoSpuriousFrame := by
  intro Ws n s hWs hp hpend
  obtain ⟨o, hout, hframes⟩ := drive_isFrameOf cfg ((Ws.flatMap frameBytes).drop n) (past := []) hpend
    (parserInv_of_awaitStart hp) (inProgress_of_awaitStart [] hp)
  refine ⟨_, o, deliver_eq_drive _ s, hout, fun e he => (hframes e he).imp_right ?_⟩
  rintro ⟨F, cause, hF, ⟨before, after, hbytes⟩, rfl⟩
  refine ⟨F, mem_of_stream hF hWs (before := (Ws.flatMap frameBytes).take n ++ before) (after := after) ?_, cause, rfl⟩
  rw [List.append_assoc, ← List.append_assoc before, hbytes, List.nil_append, List.take_append_drop]

end Sys2Proof.Machine
end

section
/-! Runs with a pending query (43_query_correlator.md sections 3 and 5; 60_exceptions.md section 3): what one event does to a query
that waits, by induction what a run does, and the events of one cycle. -/

namespace Sys2Proof.Machine
open Safety

/-! Runs. -/

theorem runEvents_cons_of_exec {i : Instr} {es : List Instr} {s u : State} (h : exec i s = .next u) :
    runEvents (i :: es) s = runEvents es u := by
  simp [runEvents, h]

theorem exists_exec_of_runEvents_cons {i : Instr} {es : List Instr} {s t : State} (h : runEvents (i :: es) s = .next t) :
    ∃ u, exec i s = .next u ∧ runEvents es u = .next t := by
  obtain ⟨u, hu⟩ := exec_total i s
  exact ⟨u, hu, (runEvents_cons_of_exec hu).symm.trans h⟩

theorem runEvents_append_of_run {as bs : List Instr} {s u : State} (h : runEvents as s = .next u) :
    runEvents (as ++ bs) s = runEvents bs u := by
  induction as generalizing s with
  | nil =>
    obtain rfl := Host.Outcome.next.inj h
    rfl
  | cons i as ih =>
    obtain ⟨v, hv, hrest⟩ := exists_exec_of_runEvents_cons h
    rw [List.cons_append, runEvents_cons_of_exec hv, ih hrest]

theorem runEvents_out_grows {es : List Instr} {s t : State} (h : runEvents es s = .next t) : ∃ o, t.out = s.out ++ o := by
  induction es generalizing s with
  | nil =>
    obtain rfl := Host.Outcome.next.inj h
    exact ⟨[], by simp⟩
  | cons i es ih =>
    obtain ⟨u, hu, hrest⟩ := exists_exec_of_runEvents_cons h
    obtain ⟨⟨o, ho⟩, -⟩ := exec_grows hu
    obtain ⟨o', ho'⟩ := ih hrest
    exact ⟨o ++ o', by rw [ho', ho, List.append_assoc]⟩

/-- The outputs of a run are those of its first event and then those of the rest. -/
theorem exists_split_of_runEvents {es : List Instr} {s u t : State} {o₁ o : List OutEvent} (hrest : runEvents es u = .next t)
    (hfirst : u.out = s.out ++ o₁) (hout : t.out = s.out ++ o) : ∃ o₂, t.out = u.out ++ o₂ ∧ o = o₁ ++ o₂ := by
  obtain ⟨o₂, ho₂⟩ := runEvents_out_grows hrest
  refine ⟨o₂, ho₂, List.append_cancel_left (as := s.out) ?_⟩
  rw [← hout, ho₂, hfirst, List.append_assoc]

/-! One event while a query waits (R170, R177, R190). -/

/-- The pending query of `s` is pending in `t`, unchanged. -/
structure QueryKept (s t : State) : Prop where
  pend : t.pend = true
  expc : t.expc = s.expc
  tstart : t.tstart = s.tstart
  tmo : t.tmo = s.tmo

theorem QueryKept.trans {s t u : State} (hst : QueryKept s t) (htu : QueryKept t u) : QueryKept s u :=
  ⟨htu.pend, htu.expc.trans hst.expc, htu.tstart.trans hst.tstart, htu.tmo.trans hst.tmo⟩

/-- How many of the outputs are Busy. -/
def busyCount (o : List OutEvent) : Nat := o.countP (fun e => decide (e = .qresult .busy))

/-- How many of the events are queries. -/
def askCount (es : List Instr) : Nat := es.countP (fun i => (askOf cfg i).isSome)

/-- The event `i` left the pending query waiting: it resolved nothing, a query was Busy, a valid control action sent its
frame. -/
structure Waits (i : Instr) (s t : State) (o : List OutEvent) : Prop where
  kept : QueryKept s t
  quiet : ∀ e ∈ o, resolving e = false
  busy : busyCount o = askCount [i]
  sent : o.countP isTx = [i].countP (issuesFrame cfg)

/-- What the receive unit puts out is neither Busy nor a transmission. -/
theorem counts_of_receiveOutputs {o : List OutEvent} (h : ∀ e ∈ o, isReceiveOutput e = true) :
    busyCount o = 0 ∧ o.countP isTx = 0 := by
  refine ⟨List.countP_eq_zero.mpr fun e he hbusy => ?_, List.countP_eq_zero.mpr fun e he htx => ?_⟩
  · obtain rfl := of_decide_eq_true hbusy
    exact absurd (h _ he) (by decide)
  · have hkind := h e he
    cases e <;> simp_all [isTx, isReceiveOutput, isAnswer]

/-- Of the receive unit's outputs the answers alone resolve (R190). -/
theorem resolving_eq_isAnswer {e : OutEvent} (h : isReceiveOutput e = true) : resolving e = isAnswer e := by
  cases e with
  | qresult r => cases r <;> simp_all [resolving, isReceiveOutput, isAnswer]
  | tx F => rfl
  | decodeFail kind => rfl
  | sink F cause => rfl

/-- One event other than reset: a received frame answers the query, or a tick ends it, or it waits on. -/
theorem exec_of_pending {i : Instr} {s t : State} (hpend : s.pend = true) (hi : i ≠ .reset) (hexec : exec i s = .next t) :
    ∃ o, t.out = s.out ++ o ∧ ((∃ e ∈ o, isAnswer e = true)
      ∨ (i = .tick ∧ s.tmo ≤ elapsedTicks cfg (truncTicks cfg (s.now + 1)) s.tstart ∧ o = [.qresult .timeout])
      ∨ Waits i s t o) := by
  cases eventEffect_of_exec hexec with
  | sent c m l hissues =>
    have hask := askOf_of_isSome_issueOf cfg (isSome_issueOf_of_issuesFrame hissues)
    refine ⟨_, rfl, .inr (.inr ⟨⟨hpend, rfl, rfl, rfl⟩, by simp [resolving], ?_, ?_⟩)⟩
    · simp [busyCount, askCount, hask]
    · simp [isTx, hissues]
  | unsent hissue hinvalid =>
    have hask := askOf_of_isSome_issueOf cfg hissue
    refine ⟨[], by simp, .inr (.inr ⟨⟨hpend, rfl, rfl, rfl⟩, by simp, ?_, ?_⟩)⟩
    · simp [busyCount, askCount, hask]
    · simp [hinvalid]
  | busy hask =>
    have hissues := issuesFrame_of_issueOf_none (issueOf_of_isSome_askOf hask)
    refine ⟨_, rfl, .inr (.inr ⟨⟨hpend, rfl, rfl, rfl⟩, by simp [resolving], ?_, ?_⟩)⟩
    · simp [busyCount, askCount, hask]
    · simp [isTx, hissues]
  | asked _ hidle => simp [hpend] at hidle
  | @received bs hbytes =>
    obtain ⟨o, hout, hkinds, hafter⟩ := drive_receives cfg bs s
    refine ⟨o, hout, ?_⟩
    by_cases hanswer : ∃ e ∈ o, isAnswer e = true
    · exact .inl hanswer
    · have hsame : (drive cfg bs s).pend = s.pend := hafter.resolve_right fun ⟨_, _, h⟩ => hanswer h
      obtain ⟨hexpc, htstart, htmo, -⟩ := drive_frame cfg bs s
      obtain ⟨hbusy, htx⟩ := counts_of_receiveOutputs hkinds
      refine .inr (.inr ⟨⟨hsame.trans hpend, hexpc, htstart, htmo⟩, fun e he => ?_, ?_, ?_⟩)
      · rw [resolving_eq_isAnswer (hkinds e he)]
        exact Bool.eq_false_iff.mpr fun h => hanswer ⟨e, he, h⟩
      · simp [hbusy, askCount, askOf_of_receivedBytes cfg hbytes]
      · simp [htx, issuesFrame_of_issueOf_none (issueOf_of_receivedBytes hbytes)]
  | timedOut htick _ hdue => exact ⟨_, rfl, .inr (.inl ⟨htick, hdue, rfl⟩)⟩
  | ticked htick =>
    subst htick
    exact ⟨[], by simp, .inr (.inr ⟨⟨hpend, rfl, rfl, rfl⟩, by simp, rfl, rfl⟩)⟩
  | reset hreset => exact absurd hreset hi

/-- Settles O49: every event of the run leaves the query waiting, and the counts add up. -/
theorem pendingQueryStaysUntilResolved : Obligations.PendingQueryStaysUntilResolved := by
  intro es
  induction es with
  | nil =>
    intro s t o hpend _ hrun hout _
    obtain rfl := Host.Outcome.next.inj hrun
    obtain rfl : o = [] := List.self_eq_append_right.mp hout
    exact ⟨hpend, rfl, rfl, rfl, rfl, rfl⟩
  | cons i es ih =>
    intro s t o hpend hreset hrun hout hquiet
    obtain ⟨hi, hes⟩ := not_or.mp (mt List.mem_cons.mpr hreset)
    obtain ⟨u, hexec, hrest⟩ := exists_exec_of_runEvents_cons hrun
    obtain ⟨o₁, ho₁, heffect⟩ := exec_of_pending hpend (Ne.symm hi) hexec
    obtain ⟨o₂, ho₂, rfl⟩ := exists_split_of_runEvents hrest ho₁ hout
    obtain ⟨hquiet₁, hquiet₂⟩ := List.forall_mem_append.mp hquiet
    obtain ⟨e, he, hanswer⟩ | ⟨-, -, rfl⟩ | hwaits := heffect
    · exact absurd (hquiet₁ e he) (by simp [resolving_of_isAnswer hanswer])
    · exact absurd (hquiet₁ _ (List.mem_singleton.mpr rfl)) (by decide)
    · obtain ⟨hp, hexpc, htstart, htmo, hbusy, hsent⟩ := ih u t o₂ hwaits.kept.pend hes hrest ho₂ hquiet₂
      have hall := hwaits.kept.trans ⟨hp, hexpc, htstart, htmo⟩
      have hbusy₁ : o₁.countP (fun e => decide (e = .qresult .busy)) = [i].countP (fun i => (askOf cfg i).isSome) :=
        hwaits.busy
      refine ⟨hall.pend, hall.expc, hall.tstart, hall.tmo, ?_, ?_⟩
      · rw [List.countP_append, hbusy₁, hbusy, ← List.countP_append, List.singleton_append]
      · rw [List.countP_append, hwaits.sent, hsent, ← List.countP_append, List.singleton_append]

/-! The deadline (R178, R179). -/

/-- The ticks elapsed since the query was registered, modulo `2 ^ cfg.TW`. -/
def elapsed (s : State) : Nat := elapsedTicks cfg s.now s.tstart

theorem elapsedTicks_self (k : Cfg) (n : Nat) : elapsedTicks k n n = 0 := by
  have h := elapsedTicks_eq k n n
  rw [sub_self, Int.zero_emod] at h
  exact_mod_cast h

/-- A tick adds one, short of a wrap. -/
theorem elapsedTicks_succ {k : Cfg} {now tstart : Nat} (h : elapsedTicks k now tstart + 1 < 2 ^ k.tw) :
    elapsedTicks k (truncTicks k (now + 1)) tstart = elapsedTicks k now tstart + 1 := by
  have hbefore := elapsedTicks_eq k now tstart
  have hnext : (elapsedTicks k (truncTicks k (now + 1)) tstart : Int) = elapsedTicks k now tstart + 1 := calc
    (elapsedTicks k (truncTicks k (now + 1)) tstart : Int)
        = ((now : Int) + 1 - tstart) % 2 ^ k.tw := by
          rw [elapsedTicks_eq, truncTicks]
          push_cast
          exact Int.emod_sub_emod ..
    _ = (((now : Int) - tstart) % 2 ^ k.tw + 1) % 2 ^ k.tw := by rw [Int.emod_add_emod, add_sub_right_comm]
    _ = elapsedTicks k now tstart + 1 := by
      rw [← hbefore]
      exact Int.emod_eq_of_lt (by omega) (by exact_mod_cast h)
  exact_mod_cast hnext

theorem tickCount_cons (i : Instr) (es : List Instr) : tickCount (i :: es) = (if i = .tick then 1 else 0) + tickCount es := by
  by_cases hi : i = .tick
  · rw [if_pos hi, hi, tickCount, Nat.add_comm]
  · simp [tickCount, hi]

/-- Short of the deadline one event leaves the query waiting, if it gives no answer, and counts the tick it may be. -/
theorem exec_before_deadline {i : Instr} {s t : State} (hpend : s.pend = true) (hi : i ≠ .reset) (hexec : exec i s = .next t)
    (htmo : s.tmo < 2 ^ cfg.tw) (hsoon : i = .tick → elapsed s + 1 < s.tmo) :
    ∃ o, t.out = s.out ++ o ∧ ((∃ e ∈ o, isAnswer e = true)
      ∨ (QueryKept s t ∧ .qresult .timeout ∉ o ∧ elapsed t = elapsed s + if i = .tick then 1 else 0)) := by
  obtain ⟨hnow, -⟩ := whoWritesWhichRegister i s t hexec hi
  obtain ⟨o, ho, hanswer | ⟨htick, hdue, -⟩ | hwaits⟩ := exec_of_pending hpend hi hexec
  · exact ⟨o, ho, .inl hanswer⟩
  · have hlt := hsoon htick
    rw [elapsedTicks_succ (hlt.trans htmo)] at hdue
    exact absurd hlt (Nat.not_lt.mpr hdue)
  · refine ⟨o, ho, .inr ⟨hwaits.kept, fun h => absurd (hwaits.quiet _ h) (by decide), ?_⟩⟩
    rw [elapsed, hwaits.kept.tstart, hnow]
    split
    next htick => exact elapsedTicks_succ ((hsoon htick).trans htmo)
    next => rfl

/-- Short of the deadline a run without reset and without an answer leaves the query waiting, and the elapsed ticks are
counted. -/
theorem run_before_deadline {es : List Instr} {s t : State} {o : List OutEvent} (hpend : s.pend = true)
    (hreset : .reset ∉ es) (hrun : runEvents es s = .next t) (hout : t.out = s.out ++ o)
    (hanswers : ∀ e ∈ o, isAnswer e = false) (htmo : s.tmo < 2 ^ cfg.tw)
    (hsoon : elapsed s + tickCount es < max s.tmo 1) :
    QueryKept s t ∧ .qresult .timeout ∉ o ∧ elapsed t = elapsed s + tickCount es := by
  induction es generalizing s o with
  | nil =>
    obtain rfl := Host.Outcome.next.inj hrun
    obtain rfl : o = [] := List.self_eq_append_right.mp hout
    exact ⟨⟨hpend, rfl, rfl, rfl⟩, by simp, rfl⟩
  | cons i es ih =>
    obtain ⟨hi, hes⟩ := not_or.mp (mt List.mem_cons.mpr hreset)
    obtain ⟨u, hexec, hrest⟩ := exists_exec_of_runEvents_cons hrun
    rw [tickCount_cons] at hsoon ⊢
    have hbefore (htick : i = .tick) : elapsed s + 1 < s.tmo := by
      rw [if_pos htick] at hsoon
      omega
    obtain ⟨o₁, ho₁, heffect⟩ := exec_before_deadline hpend (Ne.symm hi) hexec htmo hbefore
    obtain ⟨o₂, ho₂, rfl⟩ := exists_split_of_runEvents hrest ho₁ hout
    obtain ⟨hnone₁, hnone₂⟩ := List.forall_mem_append.mp hanswers
    obtain ⟨e, he, hanswer⟩ | ⟨hkept, hno, helapsed⟩ := heffect
    · exact absurd hanswer (by simp [hnone₁ e he])
    · obtain ⟨hkept', hno', helapsed'⟩ := ih hkept.pend hes hrest ho₂ hnone₂ (hkept.tmo ▸ htmo)
        (by rw [hkept.tmo, helapsed, Nat.add_assoc]; exact hsoon)
      refine ⟨hkept.trans hkept', ?_, by rw [helapsed', helapsed, Nat.add_assoc]⟩
      rw [List.mem_append]
      exact not_or.mpr ⟨hno, hno'⟩

/-- The tick that reaches the deadline (R179); a timeout of 0 is reached by the first. -/
theorem exec_tick_at_deadline {s : State} (hpend : s.pend = true) (htmo : s.tmo < 2 ^ cfg.tw)
    (hdue : elapsed s + 1 = max s.tmo 1) :
    exec .tick s = .next (resolve .timeout { s with now := truncTicks cfg (s.now + 1) }) := by
  have hreached : s.tmo ≤ elapsedTicks cfg (truncTicks cfg (s.now + 1)) s.tstart := by
    obtain hzero | hpos := Nat.eq_zero_or_pos s.tmo
    · omega
    · have hnext : elapsedTicks cfg s.now s.tstart + 1 = s.tmo := by rw [← elapsed]; omega
      rw [elapsedTicks_succ (hnext ▸ htmo), hnext]
  obtain ⟨-, -, h⟩ | ⟨hnot, -⟩ := tickEvent_cases cfg s
  · exact congrArg _ h
  · exact absurd ⟨hpend, hreached⟩ hnot

/-- Settles O48: the elapsed ticks are 0 when the query is accepted and the ticks of the run after it. -/
theorem timeoutAfterExactlyTmoTicks : Obligations.TimeoutAfterExactlyTmoTicks := by
  intro i q m l tmo s s1 t es o hask htmo hidle hexec hreset hrun hout hvalue herror hsoon
  obtain rfl := Host.Outcome.next.inj ((exec_of_askOf_idle hask htmo hidle).symm.trans hexec)
  have hzero : elapsed (afterAsk q m l tmo s) = 0 := elapsedTicks_self cfg s.now
  have hanswers : ∀ e ∈ o, isAnswer e = false := by
    intro e he
    unfold isAnswer
    split
    next v => exact absurd he (hvalue v)
    next code cause => exact absurd he (herror code cause)
    next => rfl
  obtain ⟨hkept, hno, helapsed⟩ :=
    run_before_deadline rfl hreset hrun hout hanswers htmo (by rw [hzero, Nat.zero_add]; exact hsoon)
  refine ⟨hkept.pend, hkept.expc, hkept.tstart, hkept.tmo, hno, fun hlast => ?_⟩
  have hdue : elapsed t + 1 = max t.tmo 1 := by
    rw [helapsed, hzero, Nat.zero_add, hkept.tmo]
    exact hlast
  exact ⟨_, exec_tick_at_deadline hkept.pend (hkept.tmo ▸ htmo) hdue, rfl, rfl, rfl⟩

/-! One cycle (60_exceptions.md R222). -/

/-- The end marker of an error report or of the reply resolves the query, and the counter stands (R174, R175). -/
theorem exec_endMarker_of_answer {s : State} (hp : s.pos = .awaitEnd) (hpend : s.pend = true)
    (hcode : s.rxf.cmd = 0x40 ∨ s.rxf.cmd = s.expc) :
    ∃ s1 : State, exec (.rxbyte 0xEF) s = .next s1 ∧ s1.pend = false ∧ s1.now = s.now
      ∧ s1.out = s.out ++ [.qresult (if s.rxf.cmd = 0x40 then .deviceError s.rxf.plsb (describe cfg s.rxf.plsb)
          else .value (BitVec.ofNat 16 (256 * s.rxf.pmsb.toNat + s.rxf.plsb.toNat)))] := by
  by_cases herr : s.rxf.cmd = 0x40
  · rw [if_pos herr]
    exact ⟨_, errorFrameResolvesThePendingQuery s hp hpend herr, rfl, rfl, rfl⟩
  · rw [if_neg herr]
    exact ⟨_, replyResolvesThePendingQuery s hp hpend herr (hcode.resolve_left herr), rfl, rfl, rfl⟩

/-- With no query pending a tick moves the counter, and an ASK after it is accepted (R171, R178). -/
theorem runEvents_tick_ask (ticked : Bool) (q m l : Byte) {tm : Nat} {s : State} (htm : tm < 2 ^ cfg.tw)
    (hidle : s.pend = false) :
    runEvents (sameCycle none ticked (some (.ask q m l tm))) s
      = .next (afterAsk q m l tm { s with now := if ticked then (s.now + 1) % 2 ^ cfg.tw else s.now }) := by
  have hask (n : Nat) : exec (.ask q m l tm) { s with now := n } = .next (afterAsk q m l tm { s with now := n }) :=
    exec_of_askOf_idle rfl htm hidle
  cases ticked with
  | false => exact runEvents_cons_of_exec (hask s.now)
  | true =>
    obtain ⟨-, htick⟩ := tickCountsAndTimesOut s
    exact (runEvents_cons_of_exec (htick (by simp [hidle]))).trans (runEvents_cons_of_exec (hask _))

/-- The byte of a cycle leaves the counter. -/
theorem now_of_byte {byte : Option Byte} {s s1 : State} (h : runEvents (sameCycle byte false none) s = .next s1) :
    s1.now = s.now := by
  cases byte with
  | none =>
    obtain rfl := Host.Outcome.next.inj h
    rfl
  | some b =>
    obtain rfl : rxByte cfg b s = s1 := Host.Outcome.next.inj h
    obtain ⟨-, -, -, hnow, -⟩ := rxByte_frame cfg b s
    exact hnow

/-- A cycle is its byte and then its tick and its operation. -/
theorem sameCycle_eq_append (byte : Option Byte) (ticked : Bool) (op : Option Instr) :
    sameCycle byte ticked op = sameCycle byte false none ++ sameCycle none ticked op := by
  simp [sameCycle]

/-- Settles O59: after the byte, or after the tick, no query is pending, and the ASK at the end finds it so. -/
theorem sameCycleInputsByteFirst : Obligations.SameCycleInputsByteFirst := by
  refine ⟨fun b i => ⟨rfl, rfl, rfl, rfl⟩, fun s ticked q m l tm htm => ⟨fun hp hpend hcode => ?_, ?_⟩⟩
  · obtain ⟨s1, hexec, hidle, hnow, hout⟩ := exec_endMarker_of_answer hp hpend hcode
    have hbyte : runEvents (sameCycle (some 0xEF) false none) s = .next s1 := runEvents_cons_of_exec hexec
    rw [sameCycle_eq_append, runEvents_append_of_run hbyte, runEvents_tick_ask ticked q m l htm hidle]
    refine ⟨_, rfl, ?_, rfl, rfl, rfl, ?_⟩
    · simp [afterAsk, hout]
    · simp [afterAsk, hnow]
  · intro byte s1 hbyte hpend hdue
    obtain ⟨htick, -⟩ := tickCountsAndTimesOut s1
    rw [sameCycle_eq_append, runEvents_append_of_run hbyte, ← now_of_byte hbyte]
    have hask : exec (.ask q m l tm)
        { s1 with now := (s1.now + 1) % 2 ^ cfg.tw, pend := false, out := s1.out ++ [.qresult .timeout] } = _ :=
      exec_of_askOf_idle rfl htm rfl
    refine ⟨_, (runEvents_cons_of_exec (htick ⟨hpend, hdue⟩)).trans (runEvents_cons_of_exec hask), ?_, rfl, rfl, rfl, rfl⟩
    simp [afterAsk]

end Sys2Proof.Machine
end
